-- ==== Sys2Proof/Word.lean ====
section
/-! DEFINITION. The word types of the block (00_scope.md R4, R5): every value is unsigned. -/

namespace Sys2Proof

/-- An 8-bit value: a general register, a timer, a byte of memory (10_state.md R20). -/
abbrev Byte := BitVec 8

/-- A 16-bit value: an instruction word, `PC`, `I`, a stack entry (10_state.md R20, 30_encoding.md R90). -/
abbrev Word := BitVec 16

/-- A 12-bit address immediate or a reduced address (20_memory.md R60, 30_encoding.md R91). -/
abbrev Addr := BitVec 12

/-- A 4-bit field of an instruction word (00_scope.md R8, "Nibble"). -/
abbrev Nibble := BitVec 4

/-- The index of a general register `V0` to `VF` (10_state.md R21). -/
abbrev Reg := Fin 16

/-- A logical key `0x0` to `0xF` (44_keypad.md R180). -/
abbrev Key := Fin 16

end Sys2Proof
end

