-- ==== Sys2Proof/Config.lean ====
section
/-! DEFINITION. The implementation parameters of 00_scope.md R4: the rows marked "fixed" are constants, the rows marked
"parameter" are the fields of `Params`, with the value this hardware takes in `params`. And the one free value, the random
byte. -/

namespace Sys2Proof.Config

/-- `MEM_SIZE`: the number of bytes of the address space (20_memory.md R60). -/
abbrev memSize : Nat := 4096

/-- `FONT_START` (20_memory.md R63). -/
abbrev fontStart : Nat := 0x050

/-- `FONT_SIZE`: 16 glyphs of 5 bytes (20_memory.md R63). -/
abbrev fontSize : Nat := 80

/-- `PROG_START` (20_memory.md R64). -/
abbrev progStart : Nat := 0x200

/-- `PROG_MAX`: the longest program image (20_memory.md R64). -/
abbrev progMax : Nat := 3584

/-- `RESET_FILL`: the reset value of every byte the source gives none (DESIGN CHOICE of the spec,
92_eei_decisions.md D3, log entry 3). -/
def resetFill : Byte := 0x00

/-- What becomes of a sprite pixel past the right or bottom edge (43_display.md R175). -/
inductive Edge where
  /-- The pixel is not written. -/
  | clip
  /-- The pixel comes back at the opposite edge. -/
  | wrap
deriving DecidableEq, Repr

/-- The 80 bytes of a font table, glyph by glyph (20_memory.md R63). -/
abbrev Font := Vector Byte fontSize

/-- The parameters of a build: "A model takes the rows marked "parameter" as configuration arguments" (00_scope.md R4;
log entry 38). Every operation that depends on one reads it here. -/
structure Params where
  /-- `FB_WIDTH`, the columns of the framebuffer. -/
  fbWidth : Nat
  /-- `FB_HEIGHT`, the rows of the framebuffer. -/
  fbHeight : Nat
  /-- `FONT_TABLE`. -/
  fontTable : Font
  /-- `DRW_EDGE` (43_display.md R175). -/
  drwEdge : Edge
  /-- `I_MASK_ON_WRITE`: whether `I` keeps only 12 bits when written (10_state.md R23). -/
  iMaskOnWrite : Bool
  /-- `TICK_HZ`: information only, no rule uses it (60_exceptions.md R220; log entry 28). -/
  tickHz : Nat
  /-- `TICK_DURING_WAIT`: whether a `Tick` during a key wait decrements the timers (44_keypad.md R185). -/
  tickDuringWait : Bool
deriving DecidableEq, Repr

/-- The customary font. PRESUMED: the spec takes the 80 values from general knowledge (92_eei_decisions.md D20,
93_implementation_defined.md G2, log entry 5). -/
def fontBytes : List Byte :=
  [0xF0, 0x90, 0x90, 0x90, 0xF0] ++ [0x20, 0x60, 0x20, 0x20, 0x70] ++
  [0xF0, 0x10, 0xF0, 0x80, 0xF0] ++ [0xF0, 0x10, 0xF0, 0x10, 0xF0] ++
  [0x90, 0x90, 0xF0, 0x10, 0x10] ++ [0xF0, 0x80, 0xF0, 0x10, 0xF0] ++
  [0xF0, 0x80, 0xF0, 0x90, 0xF0] ++ [0xF0, 0x10, 0x20, 0x40, 0x40] ++
  [0xF0, 0x90, 0xF0, 0x90, 0xF0] ++ [0xF0, 0x90, 0xF0, 0x10, 0xF0] ++
  [0xF0, 0x90, 0xF0, 0x90, 0x90] ++ [0xE0, 0x90, 0xE0, 0x90, 0xE0] ++
  [0xF0, 0x80, 0x80, 0x80, 0xF0] ++ [0xE0, 0x90, 0x90, 0x90, 0xE0] ++
  [0xF0, 0x80, 0xF0, 0x80, 0xF0] ++ [0xF0, 0x80, 0xF0, 0x80, 0x80]

/-- The font as a table of exactly 80 bytes. -/
def font : Font := ⟨fontBytes.toArray, rfl⟩

/-- The value this hardware takes for each parameter: the framebuffer's size is the spec's decision D2 (log entry 8), the
edge is the reference's (R175, D25, log entry 25), `I` is not masked (10_state.md R23, log entry 7), a `Tick` counts
during a wait (D14, log entry 16). -/
def params : Params where
  fbWidth := 64
  fbHeight := 32
  fontTable := font
  drwEdge := .clip
  iMaskOnWrite := false
  tickHz := 60
  tickDuringWait := true

/-- The free byte of the random source, one for each draw the host has not answered in advance: no generator, no
seed, no distribution is given (41_load_immediate.md R143; log entry 18). It has no body, so nothing is known of it. -/
opaque rnd : Nat → Byte

end Sys2Proof.Config
end

