-- ==== Sys2Proof/Syntax.lean ====
section
/-! DEFINITION. The instruction set: one constructor for each of the 34 rows of spec/opcode_table.json, in the
table's order, and what a decoder answers where there is no instruction. -/

namespace Sys2Proof

/-- The 34 instructions (30_encoding.md R101). `x`, `y` are register indices, `n`, `nn`, `nnn` the unsigned
immediates of 4, 8 and 12 bits (R91, R93). Ignored bits (R99) are no operands. The `y` of the two shifts is
decoded and not used (42_alu.md R157, R159). -/
inductive Instr where
  /-- `00E0` `CLS`. -/
  | cls
  /-- `00EE` `RET`. -/
  | ret
  /-- `1nnn` `JP nnn`. -/
  | jp (nnn : Addr)
  /-- `2nnn` `CALL nnn`. -/
  | call (nnn : Addr)
  /-- `3xnn` `SE Vx,nn`. -/
  | seImm (x : Reg) (nn : Byte)
  /-- `4xnn` `SNE Vx,nn`. -/
  | sneImm (x : Reg) (nn : Byte)
  /-- `5xy-` `SE Vx,Vy`. -/
  | seReg (x y : Reg)
  /-- `6xnn` `LD Vx,nn`. -/
  | ldImm (x : Reg) (nn : Byte)
  /-- `7xnn` `ADD Vx,nn`. -/
  | addImm (x : Reg) (nn : Byte)
  /-- `8xy0` `LD Vx,Vy`. -/
  | ldReg (x y : Reg)
  /-- `8xy1` `OR Vx,Vy`. -/
  | orReg (x y : Reg)
  /-- `8xy2` `AND Vx,Vy`. -/
  | andReg (x y : Reg)
  /-- `8xy3` `XOR Vx,Vy`. -/
  | xorReg (x y : Reg)
  /-- `8xy4` `ADD Vx,Vy`. -/
  | addReg (x y : Reg)
  /-- `8xy5` `SUB Vx,Vy`. -/
  | subReg (x y : Reg)
  /-- `8xy6` `SHR Vx`. -/
  | shr (x y : Reg)
  /-- `8xy7` `SUBN Vx,Vy`. -/
  | subnReg (x y : Reg)
  /-- `8xyE` `SHL Vx`. -/
  | shl (x y : Reg)
  /-- `9xy-` `SNE Vx,Vy`. -/
  | sneReg (x y : Reg)
  /-- `Annn` `LD I,nnn`. -/
  | ldI (nnn : Addr)
  /-- `Bnnn` `JP V0,nnn`. -/
  | jpV0 (nnn : Addr)
  /-- `Cxnn` `RND Vx,nn`. -/
  | rnd (x : Reg) (nn : Byte)
  /-- `Dxyn` `DRW Vx,Vy,n`. -/
  | drw (x y : Reg) (n : Nibble)
  /-- `Ex9E` `SKP Vx`. -/
  | skp (x : Reg)
  /-- `ExA1` `SKNP Vx`. -/
  | sknp (x : Reg)
  /-- `Fx07` `LD Vx,DT`. -/
  | ldVxDT (x : Reg)
  /-- `Fx0A` `LD Vx,K`. -/
  | ldVxK (x : Reg)
  /-- `Fx15` `LD DT,Vx`. -/
  | ldDTVx (x : Reg)
  /-- `Fx18` `LD ST,Vx`. -/
  | ldSTVx (x : Reg)
  /-- `Fx1E` `ADD I,Vx`. -/
  | addI (x : Reg)
  /-- `Fx29` `LD F,Vx`. -/
  | ldF (x : Reg)
  /-- `Fx33` `LD B,Vx`. -/
  | ldB (x : Reg)
  /-- `Fx55` `LD [I],Vx`. -/
  | stRegs (x : Reg)
  /-- `Fx65` `LD Vx,[I]`. -/
  | ldRegs (x : Reg)
deriving DecidableEq, Repr

/-- Why the decoder reads no instruction from a list of bytes. -/
inductive Reject where
  /-- Fewer than the two bytes of an instruction word are there (30_encoding.md R90). -/
  | truncated
  /-- The word is one of the 13872 unrecognized encodings (30_encoding.md R100). -/
  | unrecognized (w : Word)
deriving DecidableEq, Repr

end Sys2Proof
end

