-- ==== Sys2Proof/WellFormed.lean ====
section
/-! DEFINITION. Well-formedness. Every term of `Instr` is well formed: each operand's type is exactly its field, and
the spec calls every value of every field legal (30_encoding.md R93, 10_state.md R21), so there is nothing to check
of an instruction. Two things of this hardware can be ill formed, and each has its check: a program image (too
long) and an instruction word in its canonical spelling (an ignored bit set). -/

namespace Sys2Proof

/-- An image is "of up to `4096 - 0x200` bytes" (20_memory.md R64). -/
def imageFits (image : List Byte) : Bool := decide (image.length ≤ Config.progMax)

/-- The bits of a word that take no part in it: 11:8 of `00E0` and `00EE`, 3:0 of `5xy-` and `9xy-`
(30_encoding.md R95, R99). -/
def ignoredBits (w : Word) : Word :=
  if w &&& 0xF0FF#16 = 0x00E0#16 ∨ w &&& 0xF0FF#16 = 0x00EE#16 then 0x0F00#16
  else if w &&& 0xF000#16 = 0x5000#16 ∨ w &&& 0xF000#16 = 0x9000#16 then 0x000F#16
  else 0x0000#16

/-- A word is canonical when its ignored bits are 0 (30_encoding.md R95, R99: "The canonical encodings"). -/
def canonicalWord (w : Word) : Bool := w &&& ignoredBits w == 0x0000#16

end Sys2Proof
end

