-- ==== Sys2Proof/Machine/State.lean ====
section
/-! DEFINITION. The state of the block (10_state.md R20), its outputs, the host's plain data, and the state after
reset (10_state.md R33). -/

namespace Sys2Proof.Machine

/-- The 4096 bytes of `mem` (20_memory.md R60) in one canonical form: addresses strictly rising, no entry equal to
what an unlisted address reads as (`Memory.wf`). -/
abbrev Memory := List Host.Cell

/-- The pixels `(px, py)` that are on, (0,0) top-left (10_state.md R28, 43_display.md R170), in one canonical form: column
by column, strictly rising, all inside the grid (`Framebuffer.wf`). The grid's size is a parameter, so every size is held by
one type (log entry 39). -/
abbrev Framebuffer := List (Nat × Nat)

/-- The `Unrecognized(w, a)` diagnostic (60_exceptions.md R211): the word and the 12-bit address it was fetched
from. -/
structure Diagnostic where
  /-- The instruction word. -/
  word : Word
  /-- Its address, reduced modulo 4096. -/
  addr : Addr
deriving DecidableEq, Repr

/-- The events of the block (00_scope.md R7, 60_exceptions.md R227). -/
inductive HostEvent where
  /-- All state to its reset value, font loaded (70_reset_and_hazards.md R240). -/
  | reset
  /-- The program image to `mem[0x200..]` (70_reset_and_hazards.md R241). -/
  | load (image : List Byte)
  /-- One instruction, or nothing while a key is awaited (40_control_flow.md R120). -/
  | step
  /-- One decrement opportunity of both timers (60_exceptions.md R219). -/
  | tick
  /-- Logical key `k` goes down, or repeats (44_keypad.md R184). -/
  | keyDown (k : Key)
  /-- Logical key `k` goes up (44_keypad.md R184). -/
  | keyUp (k : Key)
  /-- The end of the run (60_exceptions.md R228). -/
  | quit
deriving DecidableEq, Repr

/-- The MODEL's own record of what the host has done, from which "when allowed" of 60_exceptions.md R227 follows
(log entry 31). -/
inductive Phase where
  /-- `Reset` is done, `Load` is admitted. -/
  | reset
  /-- `Load` is done, no `Step` has executed a word yet. -/
  | loaded
  /-- A `Step` has executed a word since the last `Reset`. -/
  | running
  /-- `Quit` was issued: no further event is applied. -/
  | ended
deriving DecidableEq, Repr

/-- Reasons to stop with a fault: none. "Any computed address must wrap rather than fault" (20_memory.md R61), and
the one anomaly is a no-op with a diagnostic (60_exceptions.md R210 to R213). With no constructor, no step of this
model can fault, which is what the spec says of the hardware (log entry 30). -/
inductive Fault where
deriving DecidableEq, Repr

/-- Reasons to refuse. -/
inductive Refusal where
  /-- An instruction without a meaning. Raised by no arm of `exec`: all 34 have theirs. Safe. -/
  | notModelled (mnemonic : String)
  /-- A `Load` event that is not the first one after a `Reset` and before the first `Step`: "this spec does not admit
  a `Load` after the first `Step`" (70_reset_and_hazards.md R241, log entry 22). Raised by the `load` event only,
  never by an instruction. Safe. -/
  | loadNotAdmitted
deriving DecidableEq, Repr

/-- The complete state (10_state.md R20), the environment value and the outputs the spec asks a model to keep, and
the model's own fields. -/
structure State where
  /-- The configuration of the build (00_scope.md R4); no event and no instruction changes it (log entry 38). -/
  config : Config.Params
  /-- `mem`, the 4096 bytes (20_memory.md R60). -/
  mem : Memory
  /-- `V[0..15]`, the general registers; `V[15]` is `VF` (10_state.md R21, R22). -/
  V : Vector Byte 16
  /-- `I`, the index register, not masked when written (10_state.md R23). -/
  I : Word
  /-- `PC`, the address of the next instruction between two `Step` events (10_state.md R24). -/
  PC : Word
  /-- `stack[0..15]`, the call stack (10_state.md R25). -/
  stack : Vector Word 16
  /-- `SP`, the next free entry, counting modulo 16 (10_state.md R26). -/
  SP : Nibble
  /-- `DT`, the delay timer (10_state.md R27). -/
  DT : Byte
  /-- `ST`, the sound timer (10_state.md R27). -/
  ST : Byte
  /-- `fb`, the framebuffer (10_state.md R28). -/
  fb : Framebuffer
  /-- `WAIT`, the "awaiting key" sub-state and the register it will write (10_state.md R29). -/
  WAIT : Option Reg
  /-- `keys[0..15]`, the input collaborator's environment value, `true` is down (10_state.md R31). -/
  keys : Vector Bool 16
  /-- What the last `Step` returned (43_display.md R173); an output, kept so that it can be seen (log entry 20). -/
  dirty : Bool
  /-- Every diagnostic emitted, oldest first, never cleared (60_exceptions.md R211). -/
  diags : List Diagnostic
  /-- MODEL: what the host has done (log entry 31). -/
  phase : Phase
  /-- MODEL: the events the host issues next, in its order, oldest first; when there is none, the Decoder/Executor
  performs a `Step` (60_exceptions.md R220; log entries 1, 2). -/
  agenda : List HostEvent
  /-- MODEL: the random source's next answers, as far as they are laid down (60_exceptions.md R227; log entry 18). -/
  rndAnswers : List Byte
  /-- MODEL: how many draws were answered by the free byte `Config.rnd` (log entry 18). -/
  rndDraws : Nat
deriving DecidableEq, Repr

/-- The state after `Reset` at process start (10_state.md R33, 70_reset_and_hazards.md R240): `PC` and the font are
the source's, the zeros are the spec's decision D3 (log entry 3), `SP` its D6 (log entry 4), `WAIT` its D12
(log entry 14), `keys` its D13 (log entry 15); the model's own fields are log entries 2, 18, 20, 31. -/
def State.reset : State where
  config := Config.params
  mem := []
  V := Vector.replicate 16 0x00#8
  I := 0x0000#16
  PC := 0x0200#16
  stack := Vector.replicate 16 0x0000#16
  SP := 0x0#4
  DT := 0x00#8
  ST := 0x00#8
  fb := []
  WAIT := none
  keys := Vector.replicate 16 false
  dirty := false
  diags := []
  phase := .reset
  agenda := []
  rndAnswers := []
  rndDraws := 0

/-- What a meaning or an event answers. -/
abbrev Result := Host.Outcome State Fault Refusal

end Sys2Proof.Machine
end

