-- ==== Sys2Proof/Machine/Ops.lean ====
section
/-! DEFINITION. The named operations over memory, registers, the call stack, the framebuffer and the program counter
(the primitives of 00_scope.md R6), and the one anomaly, shared by every unrecognized word. -/

namespace Sys2Proof.Machine

/-! ### Memory (20_memory.md) -/

/-- "All addresses are taken modulo 4096 (12-bit address space) on every access" (20_memory.md R61). -/
def wrapAddr (a : Nat) : Nat := a % Config.memSize

/-- What an address that nothing was written to reads as: the font in `[0x050, 0x0A0)`, else the reset fill
(10_state.md R33; log entries 3, 5, 36). -/
def unlisted (font : Config.Font) (a : Nat) : Byte :=
  if Config.fontStart ≤ a then font[a - Config.fontStart]?.getD Config.resetFill else Config.resetFill

/-- The byte at a reduced address: the last value written there, or its reset value (20_memory.md R68, R70). -/
def Memory.read (font : Config.Font) : Memory → Nat → Byte
  | [], a => unlisted font a
  | (b, v) :: m, a => if a = b then v else Memory.read font m a

/-- Put a byte in front of a memory, keeping out an entry that an unlisted address reads as. -/
def Memory.consByte (font : Config.Font) (a : Nat) (v : Byte) (m : Memory) : Memory :=
  if v = unlisted font a then m else (a, v) :: m

/-- Put a byte at an address that is not listed, before the first higher one. -/
def Memory.insertByte (font : Config.Font) : Memory → Nat → Byte → Memory
  | [], a, v => Memory.consByte font a v []
  | (b, u) :: m, a, v =>
    if a < b then Memory.consByte font a v ((b, u) :: m) else (b, u) :: Memory.insertByte font m a v

/-- Write one byte at a reduced address, keeping the canonical form; every other byte stays (20_memory.md R68). -/
def Memory.write (font : Config.Font) (m : Memory) (a : Nat) (v : Byte) : Memory :=
  Memory.insertByte font (m.filter (fun c => c.1 != a)) a v

/-- The canonical form of a memory whose addresses are at least `low`. -/
def Memory.wfFrom (font : Config.Font) (low : Nat) : Memory → Bool
  | [] => true
  | (a, v) :: m =>
    decide (low ≤ a) && decide (a < Config.memSize) && decide (v ≠ unlisted font a) && Memory.wfFrom font (a + 1) m

/-- The canonical form: addresses below 4096, strictly rising, no entry equal to what an unlisted address reads as. -/
def Memory.wf (font : Config.Font) (m : Memory) : Bool := Memory.wfFrom font 0 m

/-- `MemRead(addr, 1)` (00_scope.md R6, 20_memory.md R61). -/
def State.readByte (s : State) (a : Nat) : Byte := Memory.read s.config.fontTable s.mem (wrapAddr a)

/-- `MemWrite(addr, 1, v)` (00_scope.md R6, 20_memory.md R61). -/
def State.writeByte (s : State) (a : Nat) (v : Byte) : State :=
  { s with mem := Memory.write s.config.fontTable s.mem (wrapAddr a) v }

/-- `MemRead(addr, 2)`: two byte reads, each address reduced on its own, the lower address in bits 15:8
(00_scope.md R6, 20_memory.md R65). -/
def State.readWord (s : State) (a : Nat) : Word := wordOfBytes (s.readByte a) (s.readByte (a + 1))

/-- Write the bytes of a list at consecutive addresses, the first at `a`, each reduced on its own. -/
def State.writeBytes (s : State) (a : Nat) : List Byte → State
  | [] => s
  | b :: bs => State.writeBytes (s.writeByte a b) (a + 1) bs

/-! ### Registers (10_state.md R21 to R24) -/

/-- `VF`, register 15 (10_state.md R22). -/
def regVF : Reg := 15

/-- `V[r]`. -/
def State.readV (s : State) (r : Reg) : Byte := s.V.get r

/-- `V[r] <- v`. No register is hardwired (10_state.md R21). -/
def State.writeV (s : State) (r : Reg) (v : Byte) : State := { s with V := s.V.set r.val v r.isLt }

/-- The value that a write of `I` stores: all 16 bits, or 12 where `I_MASK_ON_WRITE` holds (10_state.md R23, log entry 7). -/
def maskIndex (maskOnWrite : Bool) (v : Word) : Word := if maskOnWrite then v &&& 0x0FFF#16 else v

/-- `I <- v` (10_state.md R23). -/
def State.writeI (s : State) (v : Word) : State := { s with I := maskIndex s.config.iMaskOnWrite v }

/-- `pc <- target`, never masked when written (10_state.md R24). -/
def State.writePC (s : State) (target : Word) : State := { s with PC := target }

/-- `DT <- v` (45_timer_index_memory.md R191). -/
def State.writeDT (s : State) (v : Byte) : State := { s with DT := v }

/-- `ST <- v` (45_timer_index_memory.md R192). -/
def State.writeST (s : State) (v : Byte) : State := { s with ST := v }

/-- `WAIT <- w` (44_keypad.md R183). -/
def State.writeWAIT (s : State) (w : Option Reg) : State := { s with WAIT := w }

/-- `dirty <- d` (43_display.md R173). -/
def State.writeDirty (s : State) (d : Bool) : State := { s with dirty := d }

/-- The length of an instruction word in bytes, added modulo 2^16 (40_control_flow.md R120; the wrap is the spec's
decision D4, log entry 6). -/
def nextPC (pc : Word) : Word := pc + 2#16

/-- `skip`: `pc <- (pc + 2) mod 2^16`, taken when `taken` holds (40_control_flow.md R121). -/
def State.skipIf (s : State) (taken : Bool) : State := if taken then s.writePC (nextPC s.PC) else s

/-! ### The call stack (10_state.md R25, R26; the convention is the spec's decision D6, log entry 4) -/

/-- `stack[k]`. -/
def State.readStack (s : State) (k : Nibble) : Word := s.stack.get k.toFin

/-- Push: write at `SP`, then increment modulo 16 (40_control_flow.md R124). -/
def State.push (s : State) (v : Word) : State :=
  { s with stack := s.stack.set s.SP.toNat v s.SP.isLt, SP := s.SP + 1#4 }

/-- Pop: decrement modulo 16, then read; the entry stays as it was (40_control_flow.md R122). -/
def State.pop (s : State) : Word × State := (s.readStack (s.SP - 1#4), { s with SP := s.SP - 1#4 })

/-! ### The framebuffer (43_display.md R170) -/

/-- The order of the listed pixels: by column, then by row. -/
def pixelBefore (p q : Nat × Nat) : Bool := decide (p.1 < q.1) || (decide (p.1 = q.1) && decide (p.2 < q.2))

/-- Put a pixel that is not listed before the first later one. -/
def Framebuffer.insertPixel (p : Nat × Nat) : Framebuffer → Framebuffer
  | [] => [p]
  | q :: fb => if pixelBefore p q then p :: q :: fb else q :: Framebuffer.insertPixel p fb

/-- `fb[px][py] <- b`, keeping the canonical form; every other pixel stays. -/
def Framebuffer.put (fb : Framebuffer) (px py : Nat) (b : Bool) : Framebuffer :=
  if b then Framebuffer.insertPixel (px, py) (fb.filter (fun q => q != (px, py)))
  else fb.filter (fun q => q != (px, py))

/-- The canonical form on a grid of `width` by `height`: every listed pixel inside it, strictly rising. -/
def Framebuffer.wf (width height : Nat) : Framebuffer → Bool
  | [] => true
  | p :: fb =>
    decide (p.1 < width) && decide (p.2 < height) && fb.all (pixelBefore p) && Framebuffer.wf width height fb

/-- A pixel inside the grid, whose size is `FB_WIDTH` by `FB_HEIGHT` (10_state.md R28, 43_display.md R170). -/
abbrev InGrid (s : State) (px py : Nat) : Prop := px < s.config.fbWidth ∧ py < s.config.fbHeight

/-- The read-out of one pixel by the presentation collaborator, and the draw's own test (60_exceptions.md R227); off
outside the grid. -/
def State.pixel (s : State) (px py : Nat) : Bool := decide (InGrid s px py) && s.fb.contains (px, py)

/-- `fb[px][py] <- b`; nothing outside the grid: "drawing never writes outside the grid" (10_state.md R28). -/
def State.writePixel (s : State) (px py : Nat) (b : Bool) : State :=
  { s with fb := if InGrid s px py then Framebuffer.put s.fb px py b else s.fb }

/-- Every pixel off (43_display.md R171). -/
def State.clearPixels (s : State) : State := { s with fb := [] }

/-! ### The outputs and the random source -/

/-- `sound_on`: 1 exactly when `ST != 0`, a pure function of the state (60_exceptions.md R221). -/
def State.soundOn (s : State) : Bool := s.ST != 0x00#8

/-- The byte the next `rnd()` answers: the host's answer where one is laid down, else the free byte
(41_load_immediate.md R143; log entry 18). -/
def State.nextRnd (s : State) : Byte :=
  match s.rndAnswers with
  | r :: _ => r
  | [] => Config.rnd s.rndDraws

/-- `rnd()` consumes one value. -/
def State.dropRnd (s : State) : State :=
  match s.rndAnswers with
  | _ :: rest => { s with rndAnswers := rest }
  | [] => { s with rndDraws := s.rndDraws + 1 }

/-! ### The anomaly -/

/-- `raise Unrecognized(w, a)`, the one anomaly of the block: the diagnostic goes out (it is appended to the log) and
no other state changes; `pc` was already advanced. No state is saved, no mode changes and control goes nowhere
special, so there is nothing to return from (60_exceptions.md R211, R216, R217; log entry 23). -/
def State.raiseUnrecognized (s : State) (w : Word) (a : Word) : State :=
  { s with diags := s.diags ++ [{ word := w, addr := a.extractLsb' 0 12 }] }

end Sys2Proof.Machine
end

