-- ==== Sys2Proof/Machine/Operands.lean ====
section
/-! DEFINITION. The operand forms (30_encoding.md R93): registers, unsigned immediates, and the values that
instructions read out of a register (key index, glyph address, sprite coordinates, register range, decimal digits). -/

namespace Sys2Proof.Machine

/-- `zext_16` of a 12-bit immediate (30_encoding.md R93). -/
def zextAddr (nnn : Addr) : Word := nnn.zeroExtend 16

/-- `zext_16` of an 8-bit value (30_encoding.md R93). -/
def zextByte (v : Byte) : Word := v.zeroExtend 16

/-- `zext_8` of a key index, `0x00` to `0x0F` (44_keypad.md R183). -/
def keyByte (k : Key) : Byte := BitVec.ofNat 8 k.val

/-- `v[3:0]`, the low nibble, as an index (44_keypad.md R181; the choice is the spec's decision D15, log entry 17;
45_timer_index_memory.md R194). -/
def lowNibble (v : Byte) : Fin 16 := (v.extractLsb' 0 4).toFin

/-- `keys[k]` for the key a register names (44_keypad.md R181, R182). -/
def State.keyIsDown (s : State) (v : Byte) : Bool := s.keys.get (lowNibble v)

/-- `FONT_START + 5 * digit`, the digit the low nibble (45_timer_index_memory.md R194). -/
def glyphAddress (v : Byte) : Word := BitVec.ofNat 16 (Config.fontStart + 5 * (lowNibble v).val)

/-- `x0 = vx mod FB_WIDTH` (43_display.md R172). -/
def State.spriteColumn (s : State) (v : Byte) : Nat := v.toNat % s.config.fbWidth

/-- `y0 = vy mod FB_HEIGHT` (43_display.md R172). -/
def State.spriteRow (s : State) (v : Byte) : Nat := v.toNat % s.config.fbHeight

/-- A coordinate inside a sprite: not reduced again under `clip`, reduced under `wrap` (43_display.md R172, R175). -/
def edgeCoord (edge : Config.Edge) (size c : Nat) : Nat :=
  match edge with
  | .clip => c
  | .wrap => c % size

/-- The address `I + k`, not truncated before the access reduces it (20_memory.md R61). -/
def State.indexed (s : State) (k : Nat) : Nat := s.I.toNat + k

/-- The registers `V0..Vx`, ascending, inclusive of `x` (45_timer_index_memory.md R196, R197). -/
def regRange (x : Reg) : List Reg := (List.range (x.val + 1)).map (Fin.ofNat 16)

/-- The three decimal digits, hundreds first, each a byte 0 to 9 (45_timer_index_memory.md R195). -/
def decimalDigits (v : Byte) : List Byte :=
  [BitVec.ofNat 8 (v.toNat / 100), BitVec.ofNat 8 (v.toNat / 10 % 10), BitVec.ofNat 8 (v.toNat % 10)]

end Sys2Proof.Machine
end

