-- ==== Sys2Proof/Machine/Flags.lean ====
section
/-! DEFINITION. The flag computations (42_alu.md R150, R161): every flag is a value of `VF`, `0x00` or `0x01`, and a
function of the operands as they were before the instruction. -/

namespace Sys2Proof.Machine

/-- A flag as all 8 bits of `VF`: "stores exactly `0x00` or `0x01`" (10_state.md R22). -/
def flagByte (f : Bool) : Byte := if f then 0x01#8 else 0x00#8

/-- Carry: the exact sum is above 255 (42_alu.md R155). -/
def carryOut (a b : Byte) : Bool := decide (255 < a.toNat + b.toNat)

/-- No borrow of `a - b`: `a >= b`, unsigned (42_alu.md R156, R158). -/
def noBorrow (a b : Byte) : Bool := decide (b.toNat ≤ a.toNat)

/-- The bit a right shift moves out (42_alu.md R157). -/
def lowBit (a : Byte) : Bool := a.getLsbD 0

/-- The bit a left shift moves out (42_alu.md R159). -/
def highBit (a : Byte) : Bool := a.getLsbD 7

/-- The shape of an operation with a flag: the result is written first, then `VF` (42_alu.md R150: "VF's flag write
wins"). -/
def State.writeResultThenFlag (s : State) (x : Reg) (result : Byte) (flag : Bool) : State :=
  (s.writeV x result).writeV regVF (flagByte flag)

end Sys2Proof.Machine
end

