-- ==== Sys2Proof/Machine/Alu.lean ====
section
/-! DEFINITION. The ALU group `0x8` (42_alu.md): operands first, then the result, then the flag (R150). -/

namespace Sys2Proof.Machine

/-- `LD Vx,Vy` (R151). -/
def execLdReg (x y : Reg) (s : State) : Result := .next (s.writeV x (s.readV y))

/-- `OR Vx,Vy` (R152); `VF` is not written (log entry 35). -/
def execOrReg (x y : Reg) (s : State) : Result := .next (s.writeV x (s.readV x ||| s.readV y))

/-- `AND Vx,Vy` (R153); `VF` is not written (log entry 35). -/
def execAndReg (x y : Reg) (s : State) : Result := .next (s.writeV x (s.readV x &&& s.readV y))

/-- `XOR Vx,Vy` (R154); `VF` is not written (log entry 35). -/
def execXorReg (x y : Reg) (s : State) : Result := .next (s.writeV x (s.readV x ^^^ s.readV y))

/-- `ADD Vx,Vy` (R155): `VF` is the carry. -/
def execAddReg (x y : Reg) (s : State) : Result :=
  .next (s.writeResultThenFlag x (s.readV x + s.readV y) (carryOut (s.readV x) (s.readV y)))

/-- `SUB Vx,Vy` (R156): `VF` is 1 if no borrow, i.e. `Vx >= Vy`. -/
def execSubReg (x y : Reg) (s : State) : Result :=
  .next (s.writeResultThenFlag x (s.readV x - s.readV y) (noBorrow (s.readV x) (s.readV y)))

/-- `SHR Vx` (R157): `Vx` itself is shifted; `Vy` is not used. -/
def execShr (x _y : Reg) (s : State) : Result :=
  .next (s.writeResultThenFlag x (s.readV x >>> 1) (lowBit (s.readV x)))

/-- `SUBN Vx,Vy` (R158): `Vy - Vx`. -/
def execSubnReg (x y : Reg) (s : State) : Result :=
  .next (s.writeResultThenFlag x (s.readV y - s.readV x) (noBorrow (s.readV y) (s.readV x)))

/-- `SHL Vx` (R159): `Vx` itself is shifted; `Vy` is not used. -/
def execShl (x _y : Reg) (s : State) : Result :=
  .next (s.writeResultThenFlag x (s.readV x <<< 1) (highBit (s.readV x)))

end Sys2Proof.Machine
end

