-- ==== Sys2Proof/Machine/Control.lean ====
section
/-! DEFINITION. Return, jumps, call and skips (40_control_flow.md). In every meaning `PC` already holds the address of
the next sequential instruction (R120). -/

namespace Sys2Proof.Machine

/-- `RET` (R122): `SP <- (SP - 1) mod 16`, then `pc <- stack[SP]`, unmasked. -/
def execRet (s : State) : Result := .next (s.pop.2.writePC s.pop.1)

/-- `JP nnn` (R123). -/
def execJp (nnn : Addr) (s : State) : Result := .next (s.writePC (zextAddr nnn))

/-- `CALL nnn` (R124): the advanced `pc` is pushed; a 17th nested call overwrites the oldest entry. -/
def execCall (nnn : Addr) (s : State) : Result := .next ((s.push s.PC).writePC (zextAddr nnn))

/-- `SE Vx,nn` (R125). -/
def execSeImm (x : Reg) (nn : Byte) (s : State) : Result := .next (s.skipIf (s.readV x == nn))

/-- `SNE Vx,nn` (R126). -/
def execSneImm (x : Reg) (nn : Byte) (s : State) : Result := .next (s.skipIf (s.readV x != nn))

/-- `SE Vx,Vy` (R127). -/
def execSeReg (x y : Reg) (s : State) : Result := .next (s.skipIf (s.readV x == s.readV y))

/-- `SNE Vx,Vy` (R128). -/
def execSneReg (x y : Reg) (s : State) : Result := .next (s.skipIf (s.readV x != s.readV y))

/-- `JP V0,nnn` (R129): the sum is not masked when written. -/
def execJpV0 (nnn : Addr) (s : State) : Result := .next (s.writePC (zextAddr nnn + zextByte (s.readV 0)))

end Sys2Proof.Machine
end

