-- ==== Sys2Proof/Machine/Display.lean ====
section
/-! DEFINITION. The framebuffer instructions (43_display.md): clear, and the sprite draw as the loop of R172. -/

namespace Sys2Proof.Machine

/-- `CLS` (R171): every pixel off, `dirty` reported (R173). -/
def execCls (s : State) : Result := .next (s.clearPixels.writeDirty true)

/-- One set sprite bit at `(px, py)` (R172): nothing outside the grid; inside it, `VF` becomes 1 if the pixel was on,
and the pixel is inverted. -/
def State.plotBit (s : State) (px py : Nat) : State :=
  if InGrid s px py then
    (if s.pixel px py then s.writeV regVF (flagByte true) else s).writePixel px py (!s.pixel px py)
  else s

/-- One sprite bit, column `col` of the row byte `b` (R170: bit `7 - col`): a bit that is 0 leaves its pixel alone. -/
def State.drawBit (b : Byte) (x0 py : Nat) (s : State) (col : Nat) : State :=
  if b.getLsbD (7 - col) then s.plotBit (edgeCoord s.config.drwEdge s.config.fbWidth (x0 + col)) py else s

/-- One sprite row: the byte at `I + row`, its 8 bits left to right (R172). -/
def State.drawRow (x0 y0 : Nat) (s : State) (row : Nat) : State :=
  (List.range 8).foldl
    (State.drawBit (s.readByte (s.indexed row)) x0 (edgeCoord s.config.drwEdge s.config.fbHeight (y0 + row))) s

/-- The rows of a sprite, top to bottom (R172). -/
def State.drawRows (x0 y0 n : Nat) (s : State) : State := (List.range n).foldl (State.drawRow x0 y0) s

/-- `DRW Vx,Vy,n` (R172): the coordinates are read first (the spec's decision D17, log entry 19), `VF` is cleared, the
rows are drawn with the edge rule of `DRW_EDGE` (R175), `dirty` is reported (R173). -/
def execDrw (x y : Reg) (n : Nibble) (s : State) : Result :=
  .next (((s.writeV regVF (flagByte false)).drawRows (s.spriteColumn (s.readV x)) (s.spriteRow (s.readV y))
    n.toNat).writeDirty true)

end Sys2Proof.Machine
end

