-- ==== Sys2Proof/Machine/Immediate.lean ====
section
/-! DEFINITION. Immediate loads, immediate add and random (41_load_immediate.md). -/

namespace Sys2Proof.Machine

/-- `LD Vx,nn` (R140). -/
def execLdImm (x : Reg) (nn : Byte) (s : State) : Result := .next (s.writeV x nn)

/-- `ADD Vx,nn` (R141): wraps at 8 bits, "no flag change". -/
def execAddImm (x : Reg) (nn : Byte) (s : State) : Result := .next (s.writeV x (s.readV x + nn))

/-- `LD I,nnn` (R142). -/
def execLdI (nnn : Addr) (s : State) : Result := .next (s.writeI (zextAddr nnn))

/-- `RND Vx,nn` for the byte `r` that `rnd()` answers (R143). -/
def State.randomTo (s : State) (x : Reg) (nn r : Byte) : State := s.writeV x (r &&& nn)

/-- `RND Vx,nn` (R143): one value of the random source is consumed. -/
def execRnd (x : Reg) (nn : Byte) (s : State) : Result := .next (s.dropRnd.randomTo x nn s.nextRnd)

end Sys2Proof.Machine
end

