-- ==== Sys2Proof/Machine/Keypad.lean ====
section
/-! DEFINITION. The keypad instructions (44_keypad.md). -/

namespace Sys2Proof.Machine

/-- `SKP Vx` (R181). -/
def execSkp (x : Reg) (s : State) : Result := .next (s.skipIf (s.keyIsDown (s.readV x)))

/-- `SKNP Vx` (R182). -/
def execSknp (x : Reg) (s : State) : Result := .next (s.skipIf (!s.keyIsDown (s.readV x)))

/-- `LD Vx,K` (R183): enter the "awaiting key" sub-state, nothing else changes; a later key press completes it
(R184; the spec's decisions D11, D12, log entries 13, 14). -/
def execLdVxK (x : Reg) (s : State) : Result := .next (s.writeWAIT (some x))

end Sys2Proof.Machine
end

