-- ==== Sys2Proof/Machine/TimerIndexMemory.lean ====
section
/-! DEFINITION. Timer access, index arithmetic, decimal digits and block transfer (45_timer_index_memory.md). -/

namespace Sys2Proof.Machine

/-- `LD Vx,DT` (R190). -/
def execLdVxDT (x : Reg) (s : State) : Result := .next (s.writeV x s.DT)

/-- `LD DT,Vx` (R191). -/
def execLdDTVx (x : Reg) (s : State) : Result := .next (s.writeDT (s.readV x))

/-- `LD ST,Vx` (R192). -/
def execLdSTVx (x : Reg) (s : State) : Result := .next (s.writeST (s.readV x))

/-- `ADD I,Vx` (R193): modulo 2^16 (the spec's decision D5, log entry 7), no flag. -/
def execAddI (x : Reg) (s : State) : Result := .next (s.writeI (s.I + zextByte (s.readV x)))

/-- `LD F,Vx` (R194). -/
def execLdF (x : Reg) (s : State) : Result := .next (s.writeI (glyphAddress (s.readV x)))

/-- `LD B,Vx` (R195): hundreds, tens, ones at `I`, `I + 1`, `I + 2`. -/
def execLdB (x : Reg) (s : State) : Result := .next (s.writeBytes (s.indexed 0) (decimalDigits (s.readV x)))

/-- One byte of the block store: `MemWrite(I + i, 1, V[i])`. -/
def State.storeReg (s : State) (r : Reg) : State := s.writeByte (s.indexed r.val) (s.readV r)

/-- One byte of the block load: `V[i] <- MemRead(I + i, 1)`. -/
def State.loadReg (s : State) (r : Reg) : State := s.writeV r (s.readByte (s.indexed r.val))

/-- `LD [I],Vx` (R196): `I` is unchanged (the spec's decision D19, log entry 21). -/
def execStRegs (x : Reg) (s : State) : Result := .next ((regRange x).foldl State.storeReg s)

/-- `LD Vx,[I]` (R197): `I` is unchanged (the spec's decision D19, log entry 21). -/
def execLdRegs (x : Reg) (s : State) : Result := .next ((regRange x).foldl State.loadReg s)

end Sys2Proof.Machine
end

