-- ==== Sys2Proof/Machine/Fetch.lean ====
section
/-! DEFINITION. The `Step` event: fetch, advance, decode, execute (40_control_flow.md R120). -/

namespace Sys2Proof.Machine

/-- The word at `PC`: two bytes, each address wrapped on its own, combined big-endian (R120). -/
def State.fetchWord (s : State) : Word := s.readWord s.PC.toNat

/-- The state an instruction executes in: `dirty` is 0 and `PC` is advanced before executing (R120). The model's
`phase` records that a `Step` has executed a word (log entry 31). -/
def State.advance (s : State) : State := { s with PC := nextPC s.PC, dirty := false, phase := .running }

/-- Execute the word `w` fetched from `a`: the instruction it decodes to, or the anomaly (R120, 60_exceptions.md
R211). -/
def execWord (w a : Word) (s : State) : Result :=
  match decodeWord w with
  | some i => exec i s
  | none => .next (s.raiseUnrecognized w a)

/-- The `Step` event (R120): while a key is awaited nothing is fetched and nothing changes, and 0 is returned
(44_keypad.md R185); else exactly one word is executed. -/
def performStep (s : State) : Result :=
  match s.WAIT with
  | some _ => .next (s.writeDirty false)
  | none => execWord s.fetchWord s.PC s.advance

end Sys2Proof.Machine
end

