-- ==== Sys2Proof/Machine/Events.lean ====
section
/-! DEFINITION. The events of the host interface (60_exceptions.md R227), and the order in which the model applies
them: one event a step, from the host's agenda (R220, R222; log entries 1, 2). -/

namespace Sys2Proof.Machine

/-- A timer's decrement, saturating at zero (60_exceptions.md R219). -/
def countDown (t : Byte) : Byte := if t = 0x00#8 then 0x00#8 else t - 1#8

/-- `Tick` (60_exceptions.md R219). During a key wait `TICK_DURING_WAIT` decides (44_keypad.md R185,
log entry 16). -/
def State.tick (s : State) : State :=
  if s.WAIT.isSome && !s.config.tickDuringWait then s else { s with DT := countDown s.DT, ST := countDown s.ST }

/-- `keys[k] <- b`. -/
def State.setKey (s : State) (k : Key) (b : Bool) : State := { s with keys := s.keys.set k.val b k.isLt }

/-- A key press completes a wait: the key's index goes to the waiting register (44_keypad.md R183, R184). -/
def State.completeWait (s : State) (k : Key) : State :=
  match s.WAIT with
  | some r => (s.writeV r (keyByte k)).writeWAIT none
  | none => s

/-- `KeyDown(k)` (44_keypad.md R184): only a change from up to down counts (log entry 15). -/
def State.keyDown (s : State) (k : Key) : State :=
  if s.keys.get k then s else (s.setKey k true).completeWait k

/-- `KeyUp(k)` (44_keypad.md R184): never ends a wait, writes no register. -/
def State.keyUp (s : State) (k : Key) : State := s.setKey k false

/-- `Reset` (70_reset_and_hazards.md R240): all of the block's state to its reset value. `keys` is the input
collaborator's, the diagnostic log is never cleared, and what the host has laid down and the last `Step`'s answer are
not the block's (log entry 33). The configuration is the build's; the font loaded is its `fontTable`. -/
def State.resetEvent (s : State) : State :=
  { State.reset with
    config := s.config,
    keys := s.keys, dirty := s.dirty, diags := s.diags, agenda := s.agenda,
    rndAnswers := s.rndAnswers, rndDraws := s.rndDraws }

/-- `Load(image)` (70_reset_and_hazards.md R241): at most 3584 bytes, verbatim from `0x200`; an oversized image is
truncated to fit. -/
def State.loadImage (s : State) (image : List Byte) : State :=
  { s.writeBytes Config.progStart (image.take Config.progMax) with phase := .loaded }

/-- `Quit` ends the run (60_exceptions.md R228; log entry 24). -/
def State.quit (s : State) : State := { s with phase := .ended }

/-- One event (60_exceptions.md R227). `Load` is admitted once, after `Reset` and before the first `Step`
(70_reset_and_hazards.md R241; log entry 22). -/
def applyEvent (e : HostEvent) (s : State) : Result :=
  match e with
  | .reset => .next s.resetEvent
  | .load image => if s.phase = .reset then .next (s.loadImage image) else .refused .loadNotAdmitted
  | .step => performStep s
  | .tick => .next s.tick
  | .keyDown k => .next (s.keyDown k)
  | .keyUp k => .next (s.keyUp k)
  | .quit => .next s.quit

/-- The event that happens next: the agenda's oldest, or a `Step` where the host has laid down none (log entry 2). -/
def State.nextEvent (s : State) : HostEvent := s.agenda.headD .step

/-- The state once the next event is taken off the agenda. -/
def State.takeEvent (s : State) : State := { s with agenda := s.agenda.tail }

/-- One transition of the block. After `Quit` "no further event is applied and the state is whatever the last event
left" (60_exceptions.md R228). -/
def transition (s : State) : Result :=
  if s.phase = .ended then .next s else applyEvent s.nextEvent s.takeEvent

/-- One iteration of the source's scheduler as an agenda (60_exceptions.md R229): the external events drained, then one
`Step`, then at most one `Tick`. The read of `fb` changes nothing, and throttling has no effect on the state. -/
def schedulerIteration (external : List HostEvent) (tick : Bool) : List HostEvent :=
  external ++ HostEvent.step :: (if tick then [HostEvent.tick] else [])

/-- The agenda that makes the very next transition a `Step`. -/
def stepNext (agenda : List HostEvent) : List HostEvent :=
  match agenda with
  | [] => []
  | e :: rest => HostEvent.step :: e :: rest

/-- The state in which the very next transition is a `Step` that fetches `w`: the word's bytes at `PC` and `PC + 1`, no
key awaited, the run not ended (log entry 29). -/
def State.withNextWord (s : State) (w : Word) : State :=
  { s.writeBytes s.PC.toNat [highByte w, lowByte w] with
    WAIT := none
    phase := if s.phase = .ended then .loaded else s.phase
    agenda := stepNext s.agenda }

end Sys2Proof.Machine
end

