-- ==== Sys2Proof/Machine/Step.lean ====
section
/-! DEFINITION. One step of the machine: one event of the block. -/

namespace Sys2Proof.Machine

/-- One step: the next event of the host's agenda, or a `Step` event where there is none (00_scope.md R7,
60_exceptions.md R220). -/
def step (s : State) : Host.Outcome State Fault Refusal := transition s

/-- `s` with the instruction of bits `w` (those from `nbits` up are 0) where the next `Step` fetches. -/
def State.withFetchWord (s : State) (nbits w : Nat) : State :=
  s.withNextWord (BitVec.ofNat 16 (w % 2 ^ nbits))

end Sys2Proof.Machine
end

