-- ==== Sys2Proof/Safety.lean ====
section
/-! DEFINITION. What statements are said in: what a step may leave unchanged, when a `Step` fetches, the invariant of
the machine, a program that has finished, and the declarative picture of a sprite. -/

namespace Sys2Proof.Machine

/-! ### Frames -/

/-- The parts of the state: the configuration, one for each piece of 10_state.md R20, R31 and each field of the model's own. -/
inductive Piece where
  | config | mem | V | I | PC | stack | SP | DT | ST | fb | WAIT | keys | dirty | diags | phase | agenda | rnd
deriving DecidableEq, Repr

/-- A part reads the same in two states: memory through the read of one byte, the framebuffer through the read of one
pixel, the registers and the stack through the read of one entry. -/
def Piece.Same (s t : State) (p : Piece) : Prop :=
  match p with
  | .config => t.config = s.config
  | .mem => ∀ a, t.readByte a = s.readByte a
  | .V => ∀ r, t.readV r = s.readV r
  | .I => t.I = s.I
  | .PC => t.PC = s.PC
  | .stack => ∀ k, t.readStack k = s.readStack k
  | .SP => t.SP = s.SP
  | .DT => t.DT = s.DT
  | .ST => t.ST = s.ST
  | .fb => ∀ px py, t.pixel px py = s.pixel px py
  | .WAIT => t.WAIT = s.WAIT
  | .keys => ∀ k, t.keys.get k = s.keys.get k
  | .dirty => t.dirty = s.dirty
  | .diags => t.diags = s.diags
  | .phase => t.phase = s.phase
  | .agenda => t.agenda = s.agenda
  | .rnd => t.rndAnswers = s.rndAnswers ∧ t.rndDraws = s.rndDraws

/-- Every part but the listed ones is the same in `t` as in `s`. -/
def FrameBut (changed : List Piece) (s t : State) : Prop := ∀ p, p ∉ changed → Piece.Same s t p

/-- The column "written by" of 10_state.md R20, read by instruction: the parts an instruction may write, besides `PC`
of the control transfers. `dirty` and the random source are the two interface signals of R31. -/
def writesOf (i : Instr) : List Piece :=
  match i with
  | .cls => [.fb, .dirty]
  | .ret => [.PC, .SP]
  | .jp _ => [.PC]
  | .call _ => [.PC, .SP, .stack]
  | .seImm _ _ => [.PC]
  | .sneImm _ _ => [.PC]
  | .seReg _ _ => [.PC]
  | .ldImm _ _ => [.V]
  | .addImm _ _ => [.V]
  | .ldReg _ _ => [.V]
  | .orReg _ _ => [.V]
  | .andReg _ _ => [.V]
  | .xorReg _ _ => [.V]
  | .addReg _ _ => [.V]
  | .subReg _ _ => [.V]
  | .shr _ _ => [.V]
  | .subnReg _ _ => [.V]
  | .shl _ _ => [.V]
  | .sneReg _ _ => [.PC]
  | .ldI _ => [.I]
  | .jpV0 _ => [.PC]
  | .rnd _ _ => [.V, .rnd]
  | .drw _ _ _ => [.V, .fb, .dirty]
  | .skp _ => [.PC]
  | .sknp _ => [.PC]
  | .ldVxDT _ => [.V]
  | .ldVxK _ => [.WAIT]
  | .ldDTVx _ => [.DT]
  | .ldSTVx _ => [.ST]
  | .addI _ => [.I]
  | .ldF _ => [.I]
  | .ldB _ => [.mem]
  | .stRegs _ => [.mem]
  | .ldRegs _ => [.V]

/-- The instructions that write `VF` as a flag (42_alu.md R161). -/
def writesFlag (i : Instr) : Bool :=
  match i with
  | .addReg _ _ | .subReg _ _ | .shr _ _ | .subnReg _ _ | .shl _ _ | .drw _ _ _ => true
  | .cls | .ret | .jp _ | .call _ | .seImm _ _ | .sneImm _ _ | .seReg _ _ | .ldImm _ _ | .addImm _ _ | .ldReg _ _
  | .orReg _ _ | .andReg _ _ | .xorReg _ _ | .sneReg _ _ | .ldI _ | .jpV0 _ | .rnd _ _ | .skp _ | .sknp _
  | .ldVxDT _ | .ldVxK _ | .ldDTVx _ | .ldSTVx _ | .addI _ | .ldF _ | .ldB _ | .stRegs _ | .ldRegs _ => false

/-- The register that an instruction names as its destination; for `Fx65` the last of its range
(42_alu.md R161: "naming it as the destination `Vx`", "register 15 of an `Fx65` range"). `Fx0A` writes its register at
the key press, not when it executes. -/
def namedDestination (i : Instr) : Option Reg :=
  match i with
  | .ldImm x _ | .addImm x _ | .rnd x _ => some x
  | .ldReg x _ | .orReg x _ | .andReg x _ | .xorReg x _ => some x
  | .addReg x _ | .subReg x _ | .shr x _ | .subnReg x _ | .shl x _ => some x
  | .ldVxDT x | .ldRegs x => some x
  | .cls | .ret | .jp _ | .call _ | .seImm _ _ | .sneImm _ _ | .seReg _ _ | .sneReg _ _ | .ldI _ | .jpV0 _
  | .drw _ _ _ | .skp _ | .sknp _ | .ldVxK _ | .ldDTVx _ | .ldSTVx _ | .addI _ | .ldF _ | .ldB _ | .stRegs _ => none

/-! ### Decoding -/

/-- A word is the instruction `build` reads from it exactly when its masked bits are the pattern
(30_encoding.md R101). -/
def Recognises (mask pattern : Word) (build : Word → Instr) : Prop :=
  ∀ w : Word, decodeWord w = some (build w) ↔ w &&& mask = pattern

/-! ### Running -/

/-- The next transition is a `Step` that fetches: the run is not ended, the host issues a `Step`, no key is awaited
(40_control_flow.md R120). -/
def Ready (s : State) : Prop := s.phase ≠ .ended ∧ s.nextEvent = .step ∧ s.WAIT = none

/-- Instructions executed one after another, each in the state the one before left, with no fetch between them. -/
def execAll : List Instr → State → Result
  | [], s => .next s
  | i :: is, s =>
    match exec i s with
    | .next t => execAll is t
    | .fault f => .fault f
    | .refused r => .refused r

/-- The idle loop: a jump to its own address (40_control_flow.md R130). -/
def IdleLoop (s : State) : Prop :=
  ∃ nnn : Addr, decodeWord s.fetchWord = some (.jp nnn) ∧ nnn.toNat = wrapAddr s.PC.toNat

/-- "The program has finished": the block has reached an idle loop and awaits no key (60_exceptions.md R228). -/
def Finished (s : State) : Prop := IdleLoop s ∧ s.WAIT = none

/-- A safe run: `k` steps with no diagnostic (93_implementation_defined.md U12). -/
def SafeRun (k : Nat) (s : State) : Prop := ∃ t, Sys2Proof.core.run k s = .next t ∧ t.diags = s.diags

/-- The invariant of the machine: memory and framebuffer are canonical, a key is awaited only once a `Step` has executed a word, and only
unrecognized words are in the diagnostic log (60_exceptions.md R211: "Nothing else raises it"). -/
def StateInv (s : State) : Prop :=
  Memory.wf s.config.fontTable s.mem = true ∧
  Framebuffer.wf s.config.fbWidth s.config.fbHeight s.fb = true ∧
  (s.WAIT ≠ none → s.phase = .running ∨ s.phase = .ended) ∧
  ∀ d ∈ s.diags, decodeWord d.word = none

/-! ### What a program cannot see -/

/-- Two states that differ at most in bits 15:12 of `PC`, of `I` and of the stack entries (10_state.md R30). -/
def SameBelow12 (s t : State) : Prop :=
  t.PC.toNat % 4096 = s.PC.toNat % 4096 ∧ t.I.toNat % 4096 = s.I.toNat % 4096 ∧
  (∀ k, (t.readStack k).toNat % 4096 = (s.readStack k).toNat % 4096) ∧
  FrameBut [.PC, .I, .stack] s t

/-! ### Sprites -/

/-- The bit that a sprite of `n` rows at `(x0, y0)` has for the pixel `(px, py)`, clipped and not wrapped: bit
`7 - col` of row byte `row` belongs to `(x0 + col, y0 + row)` (43_display.md R170). -/
def spriteBit (s : State) (x0 y0 n px py : Nat) : Bool :=
  decide (x0 ≤ px ∧ px < x0 + 8 ∧ y0 ≤ py ∧ py < y0 + n) &&
    (s.readByte (s.indexed (py - y0))).getLsbD (7 - (px - x0))

/-- Where row `row` and column `col` of a sprite at `(x0, y0)` land under the edge rule of the build
(43_display.md R172, R175). -/
def landsAt (s : State) (x0 y0 row col : Nat) : Nat × Nat :=
  (edgeCoord s.config.drwEdge s.config.fbWidth (x0 + col), edgeCoord s.config.drwEdge s.config.fbHeight (y0 + row))

/-- How many set bits of a sprite of `n` rows at `(x0, y0)` land on the pixel `(px, py)`: more than one only where the
sprite wraps onto itself. -/
def spriteHits (s : State) (x0 y0 n px py : Nat) : Nat :=
  ((List.range n).flatMap (fun row => (List.range 8).filter (fun col =>
    (s.readByte (s.indexed row)).getLsbD (7 - col) && landsAt s x0 y0 row col == (px, py)))).length

/-- Some pixel of the grid is turned off by the sprite: it is on and a set bit lands on it, or a second one does
(43_display.md R172). -/
def Collides (s : State) (x0 y0 n : Nat) : Prop :=
  ∃ px py, InGrid s px py ∧
    ((s.pixel px py = true ∧ 1 ≤ spriteHits s x0 y0 n px py) ∨ 2 ≤ spriteHits s x0 y0 n px py)

end Sys2Proof.Machine
end

