-- ==== Sys2Proof/Certificates/Slice0/Obligations.lean ====
section
/-! DEFINITION. The statements about the model, each from the numbered rules of the spec. A statement whose docstring
names a decision (D<n>) or a log entry rests there on the spec's own choice, not on the source. -/

open Sys2Proof Sys2Proof.Machine

/-! ### Encoding -/

/-- Decode and encode agree: the word and the bytes of an instruction decode to it, with every operand at every value.
(30_encoding.md section 4; the canonical spelling has its ignored bits 0, section 2.) -/
def Obligations.EncodeThenDecodeGivesTheInstruction : Prop :=
  ∀ i : Instr, decodeWord (encode i) = some i ∧
    ∀ rest : List Byte, decodeBytes (encodeBytes i ++ rest) = .ok (i, rest)

/-- The other direction: a word that decodes to an instruction carries that row's match under its mask, and is the
instruction's own word once its ignored bits are cleared. (30_encoding.md sections 2 and 4; the ignored bits are the
spec's decision D9.) -/
def Obligations.DecodedWordsMatchTheirTableRow : Prop :=
  ∀ (w : Word) (i : Instr), decodeWord w = some i →
    w &&& tableMask i = tableMatch i ∧ encode i = w &&& ~~~(ignoredBits w)

/-- The unrecognized words are exactly those of the four groups with a sub-select that is not listed.
(30_encoding.md section 3; the closed lists are the spec's decisions D7, D9, D10.) -/
def Obligations.UnrecognizedWordsAreExactlyThoseListed : Prop :=
  ∀ w : Word, decodeWord w = none ↔
    (w.toNat / 4096 = 0x0 ∧ w.toNat % 256 ≠ 0xE0 ∧ w.toNat % 256 ≠ 0xEE) ∨
    (w.toNat / 4096 = 0x8 ∧ 0x8 ≤ w.toNat % 16 ∧ w.toNat % 16 ≠ 0xE) ∨
    (w.toNat / 4096 = 0xE ∧ w.toNat % 256 ≠ 0x9E ∧ w.toNat % 256 ≠ 0xA1) ∨
    (w.toNat / 4096 = 0xF ∧ w.toNat % 256 ∉ [0x07, 0x0A, 0x15, 0x18, 0x1E, 0x29, 0x33, 0x55, 0x65])

/-- A word written out for several families decodes to its instruction (30_encoding.md section 4). -/
def Obligations.SampleWordsDecodeToTheirInstructions : Prop :=
  decodeWord 0b0000000011100000#16 = some .cls ∧ decodeWord 0b0001001000110100#16 = some (.jp 0x234) ∧
  decodeWord 0b0110101000101100#16 = some (.ldImm 10 0x2C) ∧ decodeWord 0b1000000000010101#16 = some (.subReg 0 1) ∧
  decodeWord 0b1101000000010101#16 = some (.drw 0 1 5) ∧ decodeWord 0b1110001110011110#16 = some (.skp 3) ∧
  decodeWord 0b1111000100000111#16 = some (.ldVxDT 1) ∧ decodeWord 0b1111001001100101#16 = some (.ldRegs 2)

/-! ### Memory, fetch and the step -/

/-- R61: every address is taken modulo 4096 on every access, address 4096 is address 0, a byte written reads back and
no other byte changes, and a two-byte read reduces each byte's address on its own. -/
def Obligations.EveryAccessWrapsModulo4096 : Prop :=
  ∀ (s : State) (a : Nat),
    s.readByte a = s.readByte (a % 4096) ∧ s.readByte (0xFFF + 1) = s.readByte 0x000 ∧
    (∀ v, s.writeByte a v = s.writeByte (a % 4096) v ∧
      ∀ b, (s.writeByte a v).readByte b = if b % 4096 = a % 4096 then v else s.readByte b) ∧
    s.readWord a = s.readByte (a % 4096) ++ s.readByte ((a + 1) % 4096)

/-- Two memories in canonical form that read the same at every address are the same data (the model's own form,
log entry 36; 20_memory.md section 1). -/
def Obligations.CanonicalMemoriesThatReadAlikeAreEqual : Prop :=
  ∀ (font : Config.Font) (m n : Memory), Memory.wf font m = true → Memory.wf font n = true →
    (∀ a, a < 4096 → m.read font a = n.read font a) → m = n

/-- Two framebuffers in canonical form with the same pixels on are the same data, whatever the grid's size (the model's own
form, log entry 39; 43_display.md R170). -/
def Obligations.CanonicalFramebuffersThatLookAlikeAreEqual : Prop :=
  ∀ s t : State, t.config = s.config →
    Framebuffer.wf s.config.fbWidth s.config.fbHeight s.fb = true →
    Framebuffer.wf t.config.fbWidth t.config.fbHeight t.fb = true →
    (∀ px py, t.pixel px py = s.pixel px py) → t.fb = s.fb

/-- A step runs the decoded instruction: in a state whose next event is a `Step` with no key awaited, when the two bytes
at `PC` and `PC + 1` decode to `i`, the step is `exec i` in the state with `PC` advanced by 2, `dirty` 0, the event
taken off the agenda and the phase `running`. (40_control_flow.md section 1; the 16-bit wrap and the wait test are the
spec's D4 and D12, agenda and phase log entries 1 and 31.) -/
def Obligations.StepRunsTheDecodedInstruction : Prop :=
  ∀ (s : State) (i : Instr), Ready s →
    decodeBytes [s.readByte s.PC.toNat, s.readByte (s.PC.toNat + 1)] = .ok (i, []) →
    step s = exec i { s with PC := s.PC + 2, dirty := false, phase := .running, agenda := s.agenda.tail }

/-- A step on an unrecognized word is a no-op with a diagnostic: `PC` advances by 2, the word and its 12-bit address are
appended to the log, nothing else of the block changes; `dirty` is 0, the event leaves the agenda and the phase becomes
`running`. (60_exceptions.md section 1; what the diagnostic carries is the spec's D23, the 16-bit wrap its D4; agenda and
phase are the model's own, log entries 1 and 31.) -/
def Obligations.StepOnAnUnrecognizedWordOnlyLogsIt : Prop :=
  ∀ (s : State) (w : Word), Ready s → w = s.readByte s.PC.toNat ++ s.readByte (s.PC.toNat + 1) →
    decodeWord w = none →
    ∃ t, step s = .next t ∧ t.PC.toNat = (s.PC.toNat + 2) % 65536 ∧ t.dirty = false ∧
      (∃ d : Diagnostic, t.diags = s.diags ++ [d] ∧ d.word = w ∧ d.addr.toNat = s.PC.toNat % 4096) ∧
      t.phase = .running ∧ t.agenda = s.agenda.tail ∧ FrameBut [.PC, .dirty, .diags, .phase, .agenda] s t

/-- While a key is awaited a `Step` fetches nothing and changes nothing, and reports `dirty` 0. (44_keypad.md section 3;
the spec's D12; the agenda, which loses the event, is the model's own, log entry 1.) -/
def Obligations.StepWhileAwaitingAKeyChangesNothing : Prop :=
  ∀ (s : State) (r : Reg), s.phase ≠ .ended → s.nextEvent = .step → s.WAIT = some r →
    ∃ t, step s = .next t ∧ t.WAIT = some r ∧ t.dirty = false ∧ t.agenda = s.agenda.tail ∧
      FrameBut [.dirty, .agenda] s t

/-- A step applies the host's next event and takes it off the agenda; with an empty agenda it is a `Step`; after `Quit`
nothing is applied any more and the state stays. (60_exceptions.md section 6; the agenda is log entries 1, 2.) -/
def Obligations.StepAppliesTheHostsNextEvent : Prop :=
  (∀ (s : State) (e : HostEvent) (rest : List HostEvent), s.phase ≠ .ended → s.agenda = e :: rest →
    step s = applyEvent e { s with agenda := rest }) ∧
  (∀ s : State, s.phase ≠ .ended → s.agenda = [] → step s = performStep s) ∧
  (∀ s : State, ∃ t, applyEvent .quit s = .next t ∧ t.phase = .ended ∧ FrameBut [.phase] s t ∧ step t = .next t)

/-! ### Control flow -/

/-- `RET` pops the call stack into `PC`: `SP` goes down by one modulo 16 and names the entry read; the entry stays.
(40_control_flow.md section 2; the stack's convention is the spec's D6, log entry 4; that bits 11:8 of the word are ignored
is its D9, log entry 11.) -/
def Obligations.RetPopsTheCallStackIntoPC : Prop :=
  Recognises 0xF0FF 0x00EE (fun _ => .ret) ∧
  ∀ s : State, ∃ t, exec .ret s = .next t ∧ t.SP.toNat = (s.SP.toNat + 15) % 16 ∧ t.PC = s.readStack t.SP ∧
    FrameBut [.PC, .SP] s t

/-- R123: `JP nnn`. -/
def Obligations.JpSetsPCToTheAddress : Prop :=
  Recognises 0xF000 0x1000 (fun w => .jp (fieldNNN w)) ∧
  ∀ (nnn : Addr) (s : State), ∃ t, exec (.jp nnn) s = .next t ∧ t.PC.toNat = nnn.toNat ∧ FrameBut [.PC] s t

/-- `CALL nnn` writes the advanced `PC` at `SP`, moves `SP` up by one modulo 16 and jumps. (40_control_flow.md
section 2; the stack's convention is the spec's D6.) -/
def Obligations.CallPushesTheAdvancedPCAndJumps : Prop :=
  Recognises 0xF000 0x2000 (fun w => .call (fieldNNN w)) ∧
  ∀ (nnn : Addr) (s : State), ∃ t, exec (.call nnn) s = .next t ∧ t.PC.toNat = nnn.toNat ∧
    t.SP.toNat = (s.SP.toNat + 1) % 16 ∧ (∀ k, t.readStack k = if k = s.SP then s.PC else s.readStack k) ∧
    FrameBut [.PC, .SP, .stack] s t

/-- The skips on an immediate, taken exactly when the register equals, or differs from, `nn`. (40_control_flow.md
section 3; the 16-bit wrap of a skip is the spec's D4.) -/
def Obligations.SkipsOnAnImmediate : Prop :=
  Recognises 0xF000 0x3000 (fun w => .seImm (fieldX w) (fieldNN w)) ∧
  Recognises 0xF000 0x4000 (fun w => .sneImm (fieldX w) (fieldNN w)) ∧
  ∀ (x : Reg) (nn : Byte) (s : State),
    (∃ t, exec (.seImm x nn) s = .next t ∧
      t.PC.toNat = (if (s.readV x).toNat = nn.toNat then (s.PC.toNat + 2) % 65536 else s.PC.toNat) ∧
      FrameBut [.PC] s t) ∧
    (∃ t, exec (.sneImm x nn) s = .next t ∧
      t.PC.toNat = (if (s.readV x).toNat = nn.toNat then s.PC.toNat else (s.PC.toNat + 2) % 65536) ∧
      FrameBut [.PC] s t)

/-- The skips on two registers, taken exactly when they are equal, or differ; the low nibble of the word has no effect.
(40_control_flow.md section 3; the ignored nibble is the spec's D9, the 16-bit wrap of a skip its D4.) -/
def Obligations.SkipsOnTwoRegisters : Prop :=
  Recognises 0xF000 0x5000 (fun w => .seReg (fieldX w) (fieldY w)) ∧
  Recognises 0xF000 0x9000 (fun w => .sneReg (fieldX w) (fieldY w)) ∧
  ∀ (x y : Reg) (s : State),
    (∃ t, exec (.seReg x y) s = .next t ∧
      t.PC.toNat = (if (s.readV x).toNat = (s.readV y).toNat then (s.PC.toNat + 2) % 65536 else s.PC.toNat) ∧
      FrameBut [.PC] s t) ∧
    (∃ t, exec (.sneReg x y) s = .next t ∧
      t.PC.toNat = (if (s.readV x).toNat = (s.readV y).toNat then s.PC.toNat else (s.PC.toNat + 2) % 65536) ∧
      FrameBut [.PC] s t)

/-- R129: `JP V0,nnn`; the sum is not reduced to 12 bits when written, the next fetch reduces it. -/
def Obligations.JpV0AddsV0ToTheAddress : Prop :=
  Recognises 0xF000 0xB000 (fun w => .jpV0 (fieldNNN w)) ∧
  ∀ (nnn : Addr) (s : State), ∃ t, exec (.jpV0 nnn) s = .next t ∧
    t.PC.toNat = nnn.toNat + (s.readV 0).toNat ∧
    t.fetchWord = s.readByte ((nnn.toNat + (s.readV 0).toNat) % 4096) ++
      s.readByte ((nnn.toNat + (s.readV 0).toNat + 1) % 4096) ∧
    FrameBut [.PC] s t

/-- Up to sixteen nested calls return in order: after as many returns as calls, `PC` and `SP` are as before them.
(40_control_flow.md section 2; the stack's convention is the spec's D6.) -/
def Obligations.SixteenNestedCallsReturnInOrder : Prop :=
  ∀ (targets : List Addr) (s : State), targets.length ≤ 16 →
    ∃ t, execAll (targets.map .call ++ List.replicate targets.length .ret) s = .next t ∧
      t.PC = s.PC ∧ t.SP = s.SP ∧ FrameBut [.stack] s t

/-- The seventeenth nested call overwrites the oldest entry: of seventeen returns the last one comes back to where the
seventeenth call was, the sixteenth call's target, not to the first caller. (40_control_flow.md section 2; the stack's
convention is the spec's D6.) -/
def Obligations.SeventeenthCallOverwritesTheOldestReturn : Prop :=
  ∀ (first : List Addr) (sixteenth seventeenth : Addr) (s : State), first.length = 15 →
    ∃ t, execAll ((first ++ [sixteenth, seventeenth]).map .call ++ List.replicate 17 .ret) s = .next t ∧
      t.PC.toNat = sixteenth.toNat ∧ t.SP = s.SP ∧ FrameBut [.PC, .stack] s t

/-- The idle loop is a fixed point: a jump at its own address leaves everything but `PC[15:12]` as it was and reports
`dirty` 0. (40_control_flow.md section 5, the spec's own derivation; agenda and phase are the model's own, log entries 1
and 31.) -/
def Obligations.IdleLoopIsAFixedPoint : Prop :=
  ∀ s : State, Ready s → IdleLoop s →
    ∃ t, step s = .next t ∧ t.PC.toNat = s.PC.toNat % 4096 ∧ t.dirty = false ∧ t.fetchWord = s.fetchWord ∧
      t.agenda = s.agenda.tail ∧ IdleLoop t ∧ FrameBut [.PC, .dirty, .phase, .agenda] s t

/-! ### Immediates and random -/

/-- R140: `LD Vx,nn`. -/
def Obligations.LdImmLoadsTheImmediate : Prop :=
  Recognises 0xF000 0x6000 (fun w => .ldImm (fieldX w) (fieldNN w)) ∧
  ∀ (x : Reg) (nn : Byte) (s : State), ∃ t, exec (.ldImm x nn) s = .next t ∧
    (∀ r, t.readV r = if r = x then nn else s.readV r) ∧ FrameBut [.V] s t

/-- R141: `ADD Vx,nn` wraps at 8 bits and writes no flag. -/
def Obligations.AddImmWrapsAndWritesNoFlag : Prop :=
  Recognises 0xF000 0x7000 (fun w => .addImm (fieldX w) (fieldNN w)) ∧
  ∀ (x : Reg) (nn : Byte) (s : State), ∃ t, exec (.addImm x nn) s = .next t ∧
    (t.readV x).toNat = ((s.readV x).toNat + nn.toNat) % 256 ∧ (∀ r, r ≠ x → t.readV r = s.readV r) ∧
    FrameBut [.V] s t

/-- R142: `LD I,nnn`. -/
def Obligations.LdILoadsTheAddress : Prop :=
  Recognises 0xF000 0xA000 (fun w => .ldI (fieldNNN w)) ∧
  ∀ (nnn : Addr) (s : State), ∃ t, exec (.ldI nnn) s = .next t ∧ t.I.toNat = nnn.toNat ∧ FrameBut [.I] s t

/-- `RND Vx,nn` stores the byte the random source answers, masked; every answer is possible, and exactly one is
consumed. `RND Vx,0x00` gives 0 whatever the source. (41_load_immediate.md; the free draw is the spec's D16, its fields
log entry 18.) -/
def Obligations.RndStoresTheMaskedDraw : Prop :=
  Recognises 0xF000 0xC000 (fun w => .rnd (fieldX w) (fieldNN w)) ∧
  (∀ (x : Reg) (nn : Byte) (s : State), ∃ t r, exec (.rnd x nn) s = .next t ∧
    (∀ q, t.readV q = if q = x then r &&& nn else s.readV q) ∧ t.readV x &&& ~~~nn = 0 ∧
    (nn = 0 → t.readV x = 0) ∧ FrameBut [.V, .rnd] s t ∧
    ((∃ rest, s.rndAnswers = r :: rest ∧ t.rndAnswers = rest ∧ t.rndDraws = s.rndDraws) ∨
      (s.rndAnswers = [] ∧ t.rndAnswers = [] ∧ t.rndDraws = s.rndDraws + 1))) ∧
  ∀ (x : Reg) (nn v : Byte) (s : State), v &&& ~~~nn = 0 →
    ∃ r, ∃ t, exec (.rnd x nn) { s with rndAnswers := r :: s.rndAnswers } = .next t ∧ t.readV x = v

/-! ### The ALU group -/

/-- The four operations without a flag: copy, or, and, xor, bit by bit; `VF` is written only as `Vx`. (42_alu.md
sections 1 and 2; the sub-selects are the spec's D7.) -/
def Obligations.CopyAndLogicWriteNoFlag : Prop :=
  Recognises 0xF00F 0x8000 (fun w => .ldReg (fieldX w) (fieldY w)) ∧
  Recognises 0xF00F 0x8001 (fun w => .orReg (fieldX w) (fieldY w)) ∧
  Recognises 0xF00F 0x8002 (fun w => .andReg (fieldX w) (fieldY w)) ∧
  Recognises 0xF00F 0x8003 (fun w => .xorReg (fieldX w) (fieldY w)) ∧
  ∀ (x y : Reg) (s : State),
    (∃ t, exec (.ldReg x y) s = .next t ∧ t.readV x = s.readV y ∧
      (∀ r, r ≠ x → t.readV r = s.readV r) ∧ FrameBut [.V] s t) ∧
    (∃ t, exec (.orReg x y) s = .next t ∧
      (∀ b, (t.readV x).getLsbD b = ((s.readV x).getLsbD b || (s.readV y).getLsbD b)) ∧
      (∀ r, r ≠ x → t.readV r = s.readV r) ∧ FrameBut [.V] s t) ∧
    (∃ t, exec (.andReg x y) s = .next t ∧
      (∀ b, (t.readV x).getLsbD b = ((s.readV x).getLsbD b && (s.readV y).getLsbD b)) ∧
      (∀ r, r ≠ x → t.readV r = s.readV r) ∧ FrameBut [.V] s t) ∧
    (∃ t, exec (.xorReg x y) s = .next t ∧
      (∀ b, (t.readV x).getLsbD b = ((s.readV x).getLsbD b ^^ (s.readV y).getLsbD b)) ∧
      (∀ r, r ≠ x → t.readV r = s.readV r) ∧ FrameBut [.V] s t)

/-- `ADD Vx,Vy`: the sum modulo 256, then `VF` 1 exactly when the exact sum of the old operands is above 255; the flag
wins when `x` is 15. (42_alu.md sections 1 and 2; the flag as a function of the old operands is the spec's D8.) -/
def Obligations.AddRegSetsTheCarry : Prop :=
  Recognises 0xF00F 0x8004 (fun w => .addReg (fieldX w) (fieldY w)) ∧
  ∀ (x y : Reg) (s : State), ∃ t, exec (.addReg x y) s = .next t ∧
    (t.readV 15).toNat = (if (s.readV x).toNat + (s.readV y).toNat > 255 then 1 else 0) ∧
    (x ≠ 15 → (t.readV x).toNat = ((s.readV x).toNat + (s.readV y).toNat) % 256) ∧
    (∀ r, r ≠ x → r ≠ 15 → t.readV r = s.readV r) ∧ FrameBut [.V] s t

/-- `SUB Vx,Vy` and `SUBN Vx,Vy`: the difference modulo 256, then `VF` 1 exactly when there is no borrow of the old
operands; the flag wins when `x` is 15. (42_alu.md sections 1 and 2; the spec's D7, D8.) -/
def Obligations.SubtractionsSetNoBorrow : Prop :=
  Recognises 0xF00F 0x8005 (fun w => .subReg (fieldX w) (fieldY w)) ∧
  Recognises 0xF00F 0x8007 (fun w => .subnReg (fieldX w) (fieldY w)) ∧
  ∀ (x y : Reg) (s : State),
    (∃ t, exec (.subReg x y) s = .next t ∧
      (t.readV 15).toNat = (if (s.readV x).toNat ≥ (s.readV y).toNat then 1 else 0) ∧
      (x ≠ 15 → (t.readV x).toNat = ((s.readV x).toNat + 256 - (s.readV y).toNat) % 256) ∧
      (∀ r, r ≠ x → r ≠ 15 → t.readV r = s.readV r) ∧ FrameBut [.V] s t) ∧
    (∃ t, exec (.subnReg x y) s = .next t ∧
      (t.readV 15).toNat = (if (s.readV y).toNat ≥ (s.readV x).toNat then 1 else 0) ∧
      (x ≠ 15 → (t.readV x).toNat = ((s.readV y).toNat + 256 - (s.readV x).toNat) % 256) ∧
      (∀ r, r ≠ x → r ≠ 15 → t.readV r = s.readV r) ∧ FrameBut [.V] s t)

/-- `SHR Vx` and `SHL Vx` shift `Vx` itself by one and put the bit shifted out in `VF`; `Vy` plays no part; the flag
wins when `x` is 15. (42_alu.md sections 1 and 2, 90_conflicts.md C2; the spec's D7, D8.) -/
def Obligations.ShiftsMoveOneBitIntoVF : Prop :=
  Recognises 0xF00F 0x8006 (fun w => .shr (fieldX w) (fieldY w)) ∧
  Recognises 0xF00F 0x800E (fun w => .shl (fieldX w) (fieldY w)) ∧
  ∀ (x y : Reg) (s : State),
    (∃ t, exec (.shr x y) s = .next t ∧ (t.readV 15).toNat = (s.readV x).toNat % 2 ∧
      (x ≠ 15 → (t.readV x).toNat = (s.readV x).toNat / 2) ∧
      (∀ r, r ≠ x → r ≠ 15 → t.readV r = s.readV r) ∧ FrameBut [.V] s t) ∧
    (∃ t, exec (.shl x y) s = .next t ∧ (t.readV 15).toNat = (s.readV x).toNat / 128 ∧
      (x ≠ 15 → (t.readV x).toNat = (s.readV x).toNat * 2 % 256) ∧
      (∀ r, r ≠ x → r ≠ 15 → t.readV r = s.readV r) ∧ FrameBut [.V] s t)

/-- The flag register over all instructions: those that write `VF` as a flag leave exactly `0x00` or `0x01` in it, and
no other changes it but as its named destination. (42_alu.md section 3.) -/
def Obligations.OnlyFlagWritersAndDestinationsChangeVF : Prop :=
  ∀ (i : Instr) (s : State), ∃ t, exec i s = .next t ∧
    (writesFlag i = true → t.readV 15 = 0x00 ∨ t.readV 15 = 0x01) ∧
    (writesFlag i = false → namedDestination i ≠ some 15 → t.readV 15 = s.readV 15)

/-! ### The framebuffer -/

/-- `CLS` turns every pixel off and reports `dirty`. (43_display.md; when `dirty` is reported is the spec's D18, the
ignored bits its D9.) -/
def Obligations.ClsTurnsEveryPixelOff : Prop :=
  Recognises 0xF0FF 0x00E0 (fun _ => .cls) ∧
  ∀ s : State, ∃ t, exec .cls s = .next t ∧ (∀ px py, t.pixel px py = false) ∧ t.dirty = true ∧
    FrameBut [.fb, .dirty] s t

/-- `DRW Vx,Vy,n`, the loop of R172, is the picture on a build that clips, whatever the grid's size: from the start
`(Vx mod FB_WIDTH, Vy mod FB_HEIGHT)`, read before `VF` is cleared, every pixel of the grid is XORed with the sprite's bit
for it, pixels past the edge are dropped, `VF` is 1 exactly when some lit pixel was turned off, `dirty` is reported, and
neither memory nor `I` changes. (43_display.md; that sprites clip is R175 and the spec's D25, log entry 25; the order of
reading and clearing is its D17, `dirty` its D18, the grid's size on this hardware its D2.) -/
def Obligations.DrwXorsTheClippedSprite : Prop :=
  Recognises 0xF000 0xD000 (fun w => .drw (fieldX w) (fieldY w) (fieldN w)) ∧
  ∀ (x y : Reg) (n : Nibble) (s : State) (x0 y0 : Nat), s.config.drwEdge = .clip →
    x0 = (s.readV x).toNat % s.config.fbWidth → y0 = (s.readV y).toNat % s.config.fbHeight →
    ∃ t, exec (.drw x y n) s = .next t ∧
      (∀ px py, InGrid s px py → t.pixel px py = (s.pixel px py ^^ spriteBit s x0 y0 n.toNat px py)) ∧
      (t.readV 15 = 0x01 ∨ t.readV 15 = 0x00) ∧
      (t.readV 15 = 0x01 ↔
        ∃ px py, InGrid s px py ∧ s.pixel px py = true ∧ spriteBit s x0 y0 n.toNat px py = true) ∧
      (∀ r, r ≠ 15 → t.readV r = s.readV r) ∧ t.dirty = true ∧ FrameBut [.V, .fb, .dirty] s t

/-- `DRW Vx,Vy,n` under either edge rule and on a grid of any size: a pixel of the grid changes exactly when an odd number
of set sprite bits lands on it, and `VF` is 1 exactly when some bit finds its pixel on. (43_display.md; that a build may
wrap instead is the parameter of R175, the spec's D25, log entry 25; D17 and D18 as above.) -/
def Obligations.DrwUnderEitherEdgeRule : Prop :=
  ∀ (x y : Reg) (n : Nibble) (s : State) (x0 y0 : Nat),
    x0 = (s.readV x).toNat % s.config.fbWidth → y0 = (s.readV y).toNat % s.config.fbHeight →
    ∃ t, exec (.drw x y n) s = .next t ∧
      (∀ px py, InGrid s px py →
        t.pixel px py = (s.pixel px py ^^ decide (spriteHits s x0 y0 n.toNat px py % 2 = 1))) ∧
      (Collides s x0 y0 n.toNat → t.readV 15 = 0x01) ∧ (¬ Collides s x0 y0 n.toNat → t.readV 15 = 0x00) ∧
      (∀ r, r ≠ 15 → t.readV r = s.readV r) ∧ t.dirty = true ∧ FrameBut [.V, .fb, .dirty] s t

/-- Drawing the same sprite twice with the same coordinates restores the framebuffer, and the second draw reports a
collision exactly when the first left some pixel on under a set bit of the sprite, or two bits land on one pixel; from an
empty framebuffer, exactly when some set bit lands in the grid. (43_display.md, the spec's own derivation in its properties
of `Dxyn`, here under either edge rule of R175.) -/
def Obligations.DrawingTwiceRestoresTheFramebuffer : Prop :=
  ∀ (x y : Reg) (n : Nibble) (s : State) (x0 y0 : Nat),
    x0 = (s.readV x).toNat % s.config.fbWidth → y0 = (s.readV y).toNat % s.config.fbHeight →
    ∃ t, exec (.drw x y n) s = .next t ∧
      (t.readV x = s.readV x → t.readV y = s.readV y →
        ∃ u, exec (.drw x y n) t = .next u ∧ (∀ px py, u.pixel px py = s.pixel px py) ∧
          (u.readV 15 = 0x01 ↔ Collides t x0 y0 n.toNat) ∧
          ((∀ px py, s.pixel px py = false) →
            (u.readV 15 = 0x01 ↔ ∃ px py, InGrid s px py ∧ 1 ≤ spriteHits s x0 y0 n.toNat px py)))

/-- A step that executes a word reports `dirty` exactly when the word is `CLS` or `DRW`. (43_display.md; the spec's
D18.) -/
def Obligations.StepReportsDirtyExactlyForClsAndDrw : Prop :=
  ∀ s : State, Ready s → ∃ t, step s = .next t ∧
    (t.dirty = true ↔ decodeWord s.fetchWord = some .cls ∨
      ∃ x y n, decodeWord s.fetchWord = some (.drw x y n))

/-! ### The keypad -/

/-- `SKP Vx` and `SKNP Vx` skip exactly when the key named by the low nibble of `Vx` is down, or up. (44_keypad.md
section 2; the low nibble is the spec's D15.) -/
def Obligations.KeySkipsFollowTheKey : Prop :=
  Recognises 0xF0FF 0xE09E (fun w => .skp (fieldX w)) ∧
  Recognises 0xF0FF 0xE0A1 (fun w => .sknp (fieldX w)) ∧
  ∀ (x : Reg) (s : State) (k : Key), k.val = (s.readV x).toNat % 16 →
    (∃ t, exec (.skp x) s = .next t ∧
      t.PC.toNat = (if s.keys.get k = true then (s.PC.toNat + 2) % 65536 else s.PC.toNat) ∧ FrameBut [.PC] s t) ∧
    (∃ t, exec (.sknp x) s = .next t ∧
      t.PC.toNat = (if s.keys.get k = true then s.PC.toNat else (s.PC.toNat + 2) % 65536) ∧ FrameBut [.PC] s t)

/-- `LD Vx,K` enters the wait for its register and changes nothing else. (44_keypad.md section 3; the spec's D12.) -/
def Obligations.LdVxKEntersTheKeyWait : Prop :=
  Recognises 0xF0FF 0xF00A (fun w => .ldVxK (fieldX w)) ∧
  ∀ (x : Reg) (s : State), ∃ t, exec (.ldVxK x) s = .next t ∧ t.WAIT = some x ∧ FrameBut [.WAIT] s t

/-- The key events: a key going down is recorded and, where one is awaited, ends the wait with its index in the waiting
register; a repeat changes nothing; a key going up is recorded and ends no wait. (44_keypad.md section 3; the spec's
D11, D13.) -/
def Obligations.KeyEventsCompleteTheWait : Prop :=
  ∀ (k : Key) (s : State),
    (∃ t, applyEvent (.keyDown k) s = .next t ∧
      (∀ j, t.keys.get j = (decide (j = k) || s.keys.get j)) ∧
      (∀ r, s.keys.get k = false → s.WAIT = some r →
        t.WAIT = none ∧ (t.readV r).toNat = k.val ∧ (∀ q, q ≠ r → t.readV q = s.readV q) ∧
        FrameBut [.keys, .V, .WAIT] s t) ∧
      (s.keys.get k = true ∨ s.WAIT = none → FrameBut [.keys] s t)) ∧
    (∃ t, applyEvent (.keyUp k) s = .next t ∧ (∀ j, t.keys.get j = (decide (j ≠ k) && s.keys.get j)) ∧
      FrameBut [.keys] s t)

/-- The one suspended state: a step enters the wait only by executing `Fx0A`, and leaves it only by a key that goes down
or by `Reset`. (60_exceptions.md section 5, 44_keypad.md section 3.) -/
def Obligations.OnlyFx0AEntersAndOnlyKeyDownOrResetLeavesTheWait : Prop :=
  ∀ s t : State, step s = .next t →
    (s.WAIT = none → ∀ r, t.WAIT = some r → Ready s ∧ decodeWord s.fetchWord = some (.ldVxK r)) ∧
    (∀ r, s.WAIT = some r → t.WAIT ≠ some r →
      t.WAIT = none ∧ (s.nextEvent = .reset ∨ ∃ k, s.nextEvent = .keyDown k ∧ s.keys.get k = false))

/-! ### Timers, index, memory transfer -/

/-- `LD Vx,DT` copies the delay timer, which stays as it is (45_timer_index_memory.md section 1, R190). -/
def Obligations.LdVxDTReadsTheDelayTimer : Prop :=
  Recognises 0xF0FF 0xF007 (fun w => .ldVxDT (fieldX w)) ∧
  ∀ (x : Reg) (s : State), ∃ t, exec (.ldVxDT x) s = .next t ∧
    (∀ r, t.readV r = if r = x then s.DT else s.readV r) ∧ FrameBut [.V] s t

/-- R191, R192: `LD DT,Vx` and `LD ST,Vx`; the next `Tick` decrements the new value of `DT`, the sound output follows
`ST` at once. (An instruction executes only where no key is awaited, so the tick's clause has that premise.) -/
def Obligations.TimersAreWrittenFromVx : Prop :=
  Recognises 0xF0FF 0xF015 (fun w => .ldDTVx (fieldX w)) ∧
  Recognises 0xF0FF 0xF018 (fun w => .ldSTVx (fieldX w)) ∧
  ∀ (x : Reg) (s : State),
    (∃ t, exec (.ldDTVx x) s = .next t ∧ t.DT = s.readV x ∧ FrameBut [.DT] s t ∧
      (s.WAIT = none → ∃ u, applyEvent .tick t = .next u ∧ u.DT.toNat = (s.readV x).toNat - 1)) ∧
    (∃ t, exec (.ldSTVx x) s = .next t ∧ t.ST = s.readV x ∧ (t.soundOn = true ↔ (s.readV x).toNat ≠ 0) ∧
      FrameBut [.ST] s t)

/-- `ADD I,Vx` adds modulo 2^16 and writes no flag; a build that masks `I` when it is written keeps 12 bits of the sum.
(45_timer_index_memory.md section 2; the wrap is the spec's D5, the parameter is `I_MASK_ON_WRITE` of R4, log entry 7.) -/
def Obligations.AddIAddsVxAndWritesNoFlag : Prop :=
  Recognises 0xF0FF 0xF01E (fun w => .addI (fieldX w)) ∧
  ∀ (x : Reg) (s : State), ∃ t, exec (.addI x) s = .next t ∧
    t.I.toNat = (s.I.toNat + (s.readV x).toNat) % (if s.config.iMaskOnWrite = true then 4096 else 65536) ∧
    FrameBut [.I] s t

/-- R194: `LD F,Vx`. -/
def Obligations.LdFPointsIAtTheGlyph : Prop :=
  Recognises 0xF0FF 0xF029 (fun w => .ldF (fieldX w)) ∧
  ∀ (x : Reg) (s : State), ∃ t, exec (.ldF x) s = .next t ∧
    t.I.toNat = 0x050 + 5 * ((s.readV x).toNat % 16) ∧ FrameBut [.I] s t

/-- R195: `LD B,Vx` stores hundreds, tens, ones at `I`, `I + 1`, `I + 2`, each address reduced on its own, and no other
byte. -/
def Obligations.LdBStoresTheDecimalDigits : Prop :=
  Recognises 0xF0FF 0xF033 (fun w => .ldB (fieldX w)) ∧
  ∀ (x : Reg) (s : State), ∃ t, exec (.ldB x) s = .next t ∧
    (t.readByte (s.indexed 0)).toNat = (s.readV x).toNat / 100 ∧
    (t.readByte (s.indexed 1)).toNat = (s.readV x).toNat / 10 % 10 ∧
    (t.readByte (s.indexed 2)).toNat = (s.readV x).toNat % 10 ∧
    (∀ a, (∀ k, k < 3 → a % 4096 ≠ s.indexed k % 4096) → t.readByte a = s.readByte a) ∧ FrameBut [.mem] s t

/-- `LD [I],Vx` stores `V0..Vx` at `I..I+x`, inclusive, each address reduced on its own, and no other byte; `I` is
unchanged. (45_timer_index_memory.md section 3; `I` unchanged is the spec's D19.) -/
def Obligations.StoreRegistersWritesTheRange : Prop :=
  Recognises 0xF0FF 0xF055 (fun w => .stRegs (fieldX w)) ∧
  ∀ (x : Reg) (s : State), ∃ t, exec (.stRegs x) s = .next t ∧
    (∀ k : Reg, k ≤ x → t.readByte (s.indexed k.val) = s.readV k) ∧
    (∀ a, (∀ k : Reg, k ≤ x → a % 4096 ≠ s.indexed k.val % 4096) → t.readByte a = s.readByte a) ∧
    FrameBut [.mem] s t

/-- `LD Vx,[I]` loads `V0..Vx` from `I..I+x`, inclusive; the registers above and `I` are unchanged.
(45_timer_index_memory.md section 3; `I` unchanged is the spec's D19.) -/
def Obligations.LoadRegistersReadsTheRange : Prop :=
  Recognises 0xF0FF 0xF065 (fun w => .ldRegs (fieldX w)) ∧
  ∀ (x : Reg) (s : State), ∃ t, exec (.ldRegs x) s = .next t ∧
    (∀ k : Reg, t.readV k = if k ≤ x then s.readByte (s.indexed k.val) else s.readV k) ∧ FrameBut [.V] s t

/-- The round trip: registers stored at `I` and loaded back from the same address are the original ones, whatever the
registers held in between. (45_timer_index_memory.md section 3, `Fx55`/`Fx65` round-trip.) -/
def Obligations.StoreThenLoadGivesTheRegistersBack : Prop :=
  ∀ (x : Reg) (s : State), ∃ t, exec (.stRegs x) s = .next t ∧
    ∀ u : State, (∀ a, u.readByte a = t.readByte a) → u.I = t.I →
      ∃ w, exec (.ldRegs x) u = .next w ∧ ∀ k : Reg, k ≤ x → w.readV k = s.readV k

/-! ### The timers' own event, reset, load -/

/-- A `Tick` decrements both timers, saturating at zero, and changes nothing else; during a key wait it does so where
`TICK_DURING_WAIT` holds, as on this hardware, and else changes nothing at all. (60_exceptions.md section 4, R219; that the
event is applied during a wait is the spec's D14, log entry 16.) -/
def Obligations.TickDecrementsBothTimers : Prop :=
  State.reset.config.tickDuringWait = true ∧
  ∀ s : State, ∃ t, applyEvent .tick s = .next t ∧
    (s.WAIT = none ∨ s.config.tickDuringWait = true →
      t.DT.toNat = s.DT.toNat - 1 ∧ t.ST.toNat = s.ST.toNat - 1 ∧ FrameBut [.DT, .ST] s t) ∧
    (s.WAIT ≠ none → s.config.tickDuringWait = false → FrameBut [] s t)

/-- Any number of ticks in a row counts the timers down to zero and no further. (60_exceptions.md section 4; a key wait is
covered where `TICK_DURING_WAIT` holds, the spec's D14, log entry 16.) -/
def Obligations.TicksCountDownToZero : Prop :=
  ∀ (k : Nat) (s : State) (rest : List HostEvent), s.phase ≠ .ended →
    s.WAIT = none ∨ s.config.tickDuringWait = true → s.agenda = List.replicate k .tick ++ rest →
    ∃ t, Sys2Proof.core.run k s = .next t ∧ t.DT.toNat = s.DT.toNat - k ∧ t.ST.toNat = s.ST.toNat - k ∧
      t.agenda = rest ∧ FrameBut [.DT, .ST, .agenda] s t

/-- The sound output is 1 exactly while `ST` is not zero: it follows `Fx18` at once and falls with the `Tick` that takes
`ST` from 1 to 0. (60_exceptions.md section 4, R221; that a tick counts during a key wait is the parameter
`TICK_DURING_WAIT`, the spec's D14, log entry 16.) -/
def Obligations.SoundIsOnExactlyWhileSTIsNonzero : Prop :=
  ∀ s : State, (s.soundOn = true ↔ s.ST.toNat ≠ 0) ∧
    (∀ x : Reg, ∃ t, exec (.ldSTVx x) s = .next t ∧ (t.soundOn = true ↔ (s.readV x).toNat ≠ 0)) ∧
    (s.WAIT = none ∨ s.config.tickDuringWait = true →
      ∃ t, applyEvent .tick s = .next t ∧ (t.soundOn = true ↔ 1 < s.ST.toNat))

/-- `Reset` at any time sets every piece of the block's state to its reset value, admits a `Load` again (the phase `reset`,
log entry 31), and leaves the configuration, the keys and the diagnostic log; the font is the build's `FONT_TABLE`; the state
at process start has the same values, all keys up and an empty log. (70_reset_and_hazards.md section 1;
the zeros are the spec's D3, `SP` its D6, the font bytes its D20, the keys its D13, and the reset at any time and what it
leaves log entry 33.) -/
def Obligations.ResetSetsEveryPieceOfState : Prop :=
  (∀ s : State, ∃ t, applyEvent .reset s = .next t ∧ t.phase = .reset ∧ t.PC = 0x0200 ∧
    (∀ (j : Nat) (h : j < 80), t.readByte (0x050 + j) = s.config.fontTable[j]) ∧
    (∀ a, a < 0x050 ∨ (0x0A0 ≤ a ∧ a < 4096) → t.readByte a = 0x00) ∧
    (∀ r, t.readV r = 0x00) ∧ t.I = 0x0000 ∧ t.SP = 0 ∧ (∀ k, t.readStack k = 0x0000) ∧ t.DT = 0x00 ∧ t.ST = 0x00 ∧
    (∀ px py, t.pixel px py = false) ∧ t.WAIT = none ∧
    FrameBut [.phase, .PC, .mem, .V, .I, .SP, .stack, .DT, .ST, .fb, .WAIT] s t) ∧
  applyEvent .reset State.reset = .next State.reset ∧ (∀ k, State.reset.keys.get k = false) ∧ State.reset.diags = []

/-- `Load` after a `Reset` and before the first `Step` puts at most 3584 bytes of the image at `0x200`, verbatim, and
changes nothing else; at any other time it is not admitted. (70_reset_and_hazards.md section 1; the spec's D22, log
entries 22, 31.) -/
def Obligations.LoadPutsTheImageAt0x200 : Prop :=
  ∀ (image : List Byte) (s : State),
    (s.phase = .reset → ∃ t, applyEvent (.load image) s = .next t ∧
      (∀ (j : Nat) (h : j < image.length), j < 3584 → t.readByte (0x200 + j) = image[j]) ∧
      (∀ a, a < 4096 → a < 0x200 ∨ 0x200 + image.length ≤ a → t.readByte a = s.readByte a) ∧
      t.phase = .loaded ∧ FrameBut [.mem, .phase] s t) ∧
    (s.phase = .loaded ∨ s.phase = .running → applyEvent (.load image) s = .refused .loadNotAdmitted)

/-! ### Whole-machine rules -/

/-- The invariant is kept by every step, whatever the event: memory and framebuffer stay canonical, a key is awaited only once a word
was executed, and only unrecognized words are in the log. (20_memory.md section 3 and log entries 36, 39, 44_keypad.md
section 3, 60_exceptions.md section 1.) -/
def Obligations.EveryStepKeepsTheInvariant : Prop :=
  ∀ s t : State, StateInv s → step s = .next t → StateInv t

/-- The invariant holds right after reset; there `PC` is `0x200`, a `Load` is admitted, with no event laid down a `Step`
comes next, and the first word is fetched from `0x200`. (10_state.md section 11, 70_reset_and_hazards.md section 1; the
phase is log entry 31, the `Step` with no `Load` before it log entries 2 and 29.) -/
def Obligations.ResetMeetsTheInvariant : Prop :=
  StateInv State.reset ∧ State.reset.PC = 0x0200 ∧ State.reset.phase = .reset ∧ Ready State.reset ∧
    State.reset.fetchWord = State.reset.readByte 0x200 ++ State.reset.readByte 0x201

/-- No instruction faults or refuses, and each changes only the parts its row of the state table lists. (10_state.md
section 1, the column "written by"; 60_exceptions.md section 1.) -/
def Obligations.EveryInstructionCompletesWithinItsFrame : Prop :=
  ∀ (i : Instr) (s : State), ∃ t, exec i s = .next t ∧ FrameBut (writesOf i) s t

/-- The configuration: no step changes it, whatever the event, and right after reset it has the values that 00_scope.md
R4 lists for this hardware, the 80 bytes of 20_memory.md R63 written out among them. (00_scope.md section 3; the font's
bytes are PRESUMED, the spec's D20, log entry 5; the sizes are the spec's D2, log entry 8, the edge its D25, log entry
25, the unmasked `I` log entry 7, ticks during a wait its D14, log entry 16, the tick rate its D29, log entry 28;
carrying the configuration in the state is log entry 38.) -/
def Obligations.NoStepChangesTheConfiguration : Prop :=
  (∀ s t : State, step s = .next t → t.config = s.config) ∧
  State.reset.config.fbWidth = 64 ∧ State.reset.config.fbHeight = 32 ∧ State.reset.config.drwEdge = .clip ∧
  State.reset.config.iMaskOnWrite = false ∧ State.reset.config.tickHz = 60 ∧
  State.reset.config.tickDuringWait = true ∧
  State.reset.config.fontTable.toList =
    [0xF0, 0x90, 0x90, 0x90, 0xF0] ++ [0x20, 0x60, 0x20, 0x20, 0x70] ++
    [0xF0, 0x10, 0xF0, 0x80, 0xF0] ++ [0xF0, 0x10, 0xF0, 0x10, 0xF0] ++
    [0x90, 0x90, 0xF0, 0x10, 0x10] ++ [0xF0, 0x80, 0xF0, 0x10, 0xF0] ++
    [0xF0, 0x80, 0xF0, 0x90, 0xF0] ++ [0xF0, 0x10, 0x20, 0x40, 0x40] ++
    [0xF0, 0x90, 0xF0, 0x90, 0xF0] ++ [0xF0, 0x90, 0xF0, 0x10, 0xF0] ++
    [0xF0, 0x90, 0xF0, 0x90, 0x90] ++ [0xE0, 0x90, 0xE0, 0x90, 0xE0] ++
    [0xF0, 0x80, 0x80, 0x80, 0xF0] ++ [0xE0, 0x90, 0x90, 0x90, 0xE0] ++
    [0xF0, 0x80, 0xF0, 0x80, 0xF0] ++ [0xF0, 0x80, 0xF0, 0x80, 0x80]

/-- The machine never stops of its own accord: a step answers a next state, except a `Load` that is not admitted.
(60_exceptions.md sections 1 and 6; the refusal is the spec's D22, log entry 22.) -/
def Obligations.OnlyALateLoadIsEverRefused : Prop :=
  ∀ s : State,
    ((∃ image, s.nextEvent = .load image) ∧ (s.phase = .loaded ∨ s.phase = .running) →
      step s = .refused .loadNotAdmitted) ∧
    (¬ ((∃ image, s.nextEvent = .load image) ∧ (s.phase = .loaded ∨ s.phase = .running)) → ∃ t, step s = .next t)

/-- The diagnostic log is append-only: a step adds at most one entry, and adds it exactly when it executes an
unrecognized word, with that word and its 12-bit address. (60_exceptions.md section 1; the spec's D23.) -/
def Obligations.DiagnosticLogIsAppendOnly : Prop :=
  ∀ s t : State, step s = .next t →
    (t.diags = s.diags ∧ ¬ (Ready s ∧ decodeWord s.fetchWord = none)) ∨
    (Ready s ∧ decodeWord s.fetchWord = none ∧
      ∃ d : Diagnostic, t.diags = s.diags ++ [d] ∧ d.word = s.fetchWord ∧ d.addr.toNat = s.PC.toNat % 4096)

/-- Single ownership: no event but a `Step` changes the framebuffer, the call stack, `SP`, `I` or `PC`, except `Reset`;
and memory only a `Step`, `Reset` or `Load`. (10_state.md section 10.) -/
def Obligations.OnlyStepAndResetChangeTheCore : Prop :=
  ∀ s t : State, step s = .next t → s.nextEvent ≠ .step → s.nextEvent ≠ .reset →
    FrameBut [.mem, .V, .DT, .ST, .WAIT, .keys, .phase, .agenda] s t ∧
    ((∀ image, s.nextEvent ≠ .load image) → FrameBut [.V, .DT, .ST, .WAIT, .keys, .phase, .agenda] s t)

/-- Bits 15:12 of `PC`, of `I` and of the stack entries cannot be observed: two states that differ at most there step to
states that differ at most there, or are refused alike. (10_state.md section 8, the spec's own derivation.) -/
def Obligations.HighAddressBitsAreUnobservable : Prop :=
  ∀ s t : State, SameBelow12 s t →
    (∀ s', step s = .next s' → ∃ t', step t = .next t' ∧ SameBelow12 s' t') ∧
    (∀ r, step s = .refused r → step t = .refused r)
end

