-- ==== Sys2Proof/Laws/Decode.lean ====
section
/-! SUPPORT. The fields of a packed word, a word packed from its fields, the table's masks in terms of the fields, and
what the decoder reads in each group. -/

namespace Sys2Proof

/-! ### Fields of a packed word -/

theorem toNat_packXYN (op : Nibble) (x y : Reg) (n : Nibble) :
    (packXYN op x y n).toNat = op.toNat * 4096 + x.val * 256 + y.val * 16 + n.toNat := by
  have h1 := op.isLt; have h2 := x.isLt; have h3 := y.isLt; have h4 := n.isLt
  unfold packXYN
  rw [BitVec.toNat_append, BitVec.toNat_append, BitVec.toNat_append]
  simp only [BitVec.toNat_ofFin]
  rw [← Nat.shiftLeft_add_eq_or_of_lt (by omega), ← Nat.shiftLeft_add_eq_or_of_lt (by omega),
    ← Nat.shiftLeft_add_eq_or_of_lt (by omega)]
  simp only [Nat.shiftLeft_eq]
  omega

theorem toNat_packXNN (op : Nibble) (x : Reg) (nn : Byte) :
    (packXNN op x nn).toNat = op.toNat * 4096 + x.val * 256 + nn.toNat := by
  have h1 := op.isLt; have h2 := x.isLt; have h3 := nn.isLt
  unfold packXNN
  rw [BitVec.toNat_append, BitVec.toNat_append]
  simp only [BitVec.toNat_ofFin]
  rw [← Nat.shiftLeft_add_eq_or_of_lt (by omega), ← Nat.shiftLeft_add_eq_or_of_lt (by omega)]
  simp only [Nat.shiftLeft_eq]
  omega

theorem toNat_packNNN (op : Nibble) (nnn : Addr) :
    (packNNN op nnn).toNat = op.toNat * 4096 + nnn.toNat := by
  have h1 := op.isLt; have h2 := nnn.isLt
  unfold packNNN
  rw [BitVec.toNat_append, ← Nat.shiftLeft_add_eq_or_of_lt (by omega)]
  simp only [Nat.shiftLeft_eq]

theorem toNat_fieldOp (w : Word) : (fieldOp w).toNat = w.toNat / 4096 := by
  have := w.isLt
  simp only [fieldOp, BitVec.extractLsb'_toNat, Nat.shiftRight_eq_div_pow]; omega

theorem val_fieldX (w : Word) : (fieldX w).val = w.toNat / 256 % 16 := by
  simp only [fieldX, BitVec.extractLsb', BitVec.ofNat, Fin.Internal.ofNat_eq_ofNat, Fin.ofNat,
    Nat.shiftRight_eq_div_pow]

theorem val_fieldY (w : Word) : (fieldY w).val = w.toNat / 16 % 16 := by
  simp only [fieldY, BitVec.extractLsb', BitVec.ofNat, Fin.Internal.ofNat_eq_ofNat, Fin.ofNat,
    Nat.shiftRight_eq_div_pow]

theorem toNat_fieldN (w : Word) : (fieldN w).toNat = w.toNat % 16 := by
  simp only [fieldN, BitVec.extractLsb'_toNat, Nat.shiftRight_eq_div_pow]; omega

theorem toNat_fieldNN (w : Word) : (fieldNN w).toNat = w.toNat % 256 := by
  simp only [fieldNN, BitVec.extractLsb'_toNat, Nat.shiftRight_eq_div_pow]; omega

theorem toNat_fieldNNN (w : Word) : (fieldNNN w).toNat = w.toNat % 4096 := by
  simp only [fieldNNN, BitVec.extractLsb'_toNat, Nat.shiftRight_eq_div_pow]; omega

@[simp] theorem fieldOp_packXYN (op x y n) : fieldOp (packXYN op x y n) = op := by
  have h1 := op.isLt; have h2 := x.isLt; have h3 := y.isLt; have h4 := n.isLt
  apply BitVec.eq_of_toNat_eq; rw [toNat_fieldOp, toNat_packXYN]; omega

@[simp] theorem fieldX_packXYN (op x y n) : fieldX (packXYN op x y n) = x := by
  have h1 := op.isLt; have h2 := x.isLt; have h3 := y.isLt; have h4 := n.isLt
  apply Fin.ext; rw [val_fieldX, toNat_packXYN]; omega

@[simp] theorem fieldY_packXYN (op x y n) : fieldY (packXYN op x y n) = y := by
  have h1 := op.isLt; have h2 := x.isLt; have h3 := y.isLt; have h4 := n.isLt
  apply Fin.ext; rw [val_fieldY, toNat_packXYN]; omega

@[simp] theorem fieldN_packXYN (op x y n) : fieldN (packXYN op x y n) = n := by
  have h1 := op.isLt; have h2 := x.isLt; have h3 := y.isLt; have h4 := n.isLt
  apply BitVec.eq_of_toNat_eq; rw [toNat_fieldN, toNat_packXYN]; omega

@[simp] theorem fieldOp_packXNN (op x nn) : fieldOp (packXNN op x nn) = op := by
  have h1 := op.isLt; have h2 := x.isLt; have h3 := nn.isLt
  apply BitVec.eq_of_toNat_eq; rw [toNat_fieldOp, toNat_packXNN]; omega

@[simp] theorem fieldX_packXNN (op x nn) : fieldX (packXNN op x nn) = x := by
  have h1 := op.isLt; have h2 := x.isLt; have h3 := nn.isLt
  apply Fin.ext; rw [val_fieldX, toNat_packXNN]; omega

@[simp] theorem fieldNN_packXNN (op x nn) : fieldNN (packXNN op x nn) = nn := by
  have h1 := op.isLt; have h2 := x.isLt; have h3 := nn.isLt
  apply BitVec.eq_of_toNat_eq; rw [toNat_fieldNN, toNat_packXNN]; omega

@[simp] theorem fieldOp_packNNN (op nnn) : fieldOp (packNNN op nnn) = op := by
  have h1 := op.isLt; have h2 := nnn.isLt
  apply BitVec.eq_of_toNat_eq; rw [toNat_fieldOp, toNat_packNNN]; omega

@[simp] theorem fieldNNN_packNNN (op nnn) : fieldNNN (packNNN op nnn) = nnn := by
  have h1 := op.isLt; have h2 := nnn.isLt
  apply BitVec.eq_of_toNat_eq; rw [toNat_fieldNNN, toNat_packNNN]; omega

/-! ### A word from its fields -/

theorem packXYN_fields (w : Word) : packXYN (fieldOp w) (fieldX w) (fieldY w) (fieldN w) = w := by
  have := w.isLt
  apply BitVec.eq_of_toNat_eq
  rw [toNat_packXYN, toNat_fieldOp, val_fieldX, val_fieldY, toNat_fieldN]; omega

theorem packXNN_fields (w : Word) : packXNN (fieldOp w) (fieldX w) (fieldNN w) = w := by
  have := w.isLt
  apply BitVec.eq_of_toNat_eq
  rw [toNat_packXNN, toNat_fieldOp, val_fieldX, toNat_fieldNN]; omega

theorem packNNN_fields (w : Word) : packNNN (fieldOp w) (fieldNNN w) = w := by
  have := w.isLt
  apply BitVec.eq_of_toNat_eq
  rw [toNat_packNNN, toNat_fieldOp, toNat_fieldNNN]; omega

/-- A stored word read back: the high byte comes first (20_memory.md R65). -/
theorem wordOfBytes_bytes (w : Word) : wordOfBytes (highByte w) (lowByte w) = w := by
  have := w.isLt
  apply BitVec.eq_of_toNat_eq
  unfold wordOfBytes highByte lowByte
  rw [BitVec.toNat_append]
  have h : (BitVec.extractLsb' 0 8 w).toNat < 2 ^ 8 := (BitVec.extractLsb' 0 8 w).isLt
  rw [← Nat.shiftLeft_add_eq_or_of_lt h]
  simp only [BitVec.extractLsb'_toNat, Nat.shiftRight_eq_div_pow, Nat.shiftLeft_eq]
  omega

/-! ### The table's masks -/

theorem and_F000 (w : Word) : w &&& 0xF000#16 = packXNN (fieldOp w) 0 0 := by
  conv_lhs => rw [← packXNN_fields w]
  unfold packXNN
  rw [show (0xF000#16 : Word) = (0xF#4 : Nibble) ++ (0x0#4 : Nibble) ++ (0x00#8 : Byte) from by decide,
    BitVec.and_append, BitVec.and_append]
  rw [show (fieldOp w &&& 0xF#4) = fieldOp w from BitVec.and_allOnes]
  simp

theorem and_F0FF (w : Word) : w &&& 0xF0FF#16 = packXNN (fieldOp w) 0 (fieldNN w) := by
  conv_lhs => rw [← packXNN_fields w]
  unfold packXNN
  rw [show (0xF0FF#16 : Word) = (0xF#4 : Nibble) ++ (0x0#4 : Nibble) ++ (0xFF#8 : Byte) from by decide,
    BitVec.and_append, BitVec.and_append]
  rw [show (fieldOp w &&& 0xF#4) = fieldOp w from BitVec.and_allOnes,
    show (fieldNN w &&& 0xFF#8) = fieldNN w from BitVec.and_allOnes]
  simp

theorem and_F00F (w : Word) : w &&& 0xF00F#16 = packXYN (fieldOp w) 0 0 (fieldN w) := by
  conv_lhs => rw [← packXYN_fields w]
  unfold packXYN
  rw [show (0xF00F#16 : Word) = (0xF#4 : Nibble) ++ (0x0#4 : Nibble) ++ (0x0#4 : Nibble) ++ (0xF#4 : Nibble) from by decide,
    BitVec.and_append, BitVec.and_append, BitVec.and_append]
  rw [show (fieldOp w &&& 0xF#4) = fieldOp w from BitVec.and_allOnes,
    show (fieldN w &&& 0xF#4) = fieldN w from BitVec.and_allOnes]
  simp

end Sys2Proof
end

