-- ==== Sys2Proof/Laws/State.lean ====
section
/-! SUPPORT. What each update of the state leaves in each field, one lemma a field and an update, each true by `rfl`, and
the reads of one entry that an update of another field does not change. -/

namespace Sys2Proof.Machine

/-! ### `writeByte` -/

@[simp] theorem State.writeByte_config (s : State) (a : Nat) (v : Byte) :
    (s.writeByte a v).config = s.config := rfl

@[simp] theorem State.writeByte_mem (s : State) (a : Nat) (v : Byte) :
    (s.writeByte a v).mem = Memory.write s.config.fontTable s.mem (wrapAddr a) v := rfl

@[simp] theorem State.writeByte_V (s : State) (a : Nat) (v : Byte) :
    (s.writeByte a v).V = s.V := rfl

@[simp] theorem State.writeByte_I (s : State) (a : Nat) (v : Byte) :
    (s.writeByte a v).I = s.I := rfl

@[simp] theorem State.writeByte_PC (s : State) (a : Nat) (v : Byte) :
    (s.writeByte a v).PC = s.PC := rfl

@[simp] theorem State.writeByte_stack (s : State) (a : Nat) (v : Byte) :
    (s.writeByte a v).stack = s.stack := rfl

@[simp] theorem State.writeByte_SP (s : State) (a : Nat) (v : Byte) :
    (s.writeByte a v).SP = s.SP := rfl

@[simp] theorem State.writeByte_DT (s : State) (a : Nat) (v : Byte) :
    (s.writeByte a v).DT = s.DT := rfl

@[simp] theorem State.writeByte_ST (s : State) (a : Nat) (v : Byte) :
    (s.writeByte a v).ST = s.ST := rfl

@[simp] theorem State.writeByte_fb (s : State) (a : Nat) (v : Byte) :
    (s.writeByte a v).fb = s.fb := rfl

@[simp] theorem State.writeByte_WAIT (s : State) (a : Nat) (v : Byte) :
    (s.writeByte a v).WAIT = s.WAIT := rfl

@[simp] theorem State.writeByte_keys (s : State) (a : Nat) (v : Byte) :
    (s.writeByte a v).keys = s.keys := rfl

@[simp] theorem State.writeByte_dirty (s : State) (a : Nat) (v : Byte) :
    (s.writeByte a v).dirty = s.dirty := rfl

@[simp] theorem State.writeByte_diags (s : State) (a : Nat) (v : Byte) :
    (s.writeByte a v).diags = s.diags := rfl

@[simp] theorem State.writeByte_phase (s : State) (a : Nat) (v : Byte) :
    (s.writeByte a v).phase = s.phase := rfl

@[simp] theorem State.writeByte_agenda (s : State) (a : Nat) (v : Byte) :
    (s.writeByte a v).agenda = s.agenda := rfl

@[simp] theorem State.writeByte_rndAnswers (s : State) (a : Nat) (v : Byte) :
    (s.writeByte a v).rndAnswers = s.rndAnswers := rfl

@[simp] theorem State.writeByte_rndDraws (s : State) (a : Nat) (v : Byte) :
    (s.writeByte a v).rndDraws = s.rndDraws := rfl

@[simp] theorem State.writeByte_readV (s : State) (a : Nat) (v : Byte) (q : Reg) :
    (s.writeByte a v).readV q = s.readV q := rfl

@[simp] theorem State.writeByte_readStack (s : State) (a : Nat) (v : Byte) (e : Nibble) :
    (s.writeByte a v).readStack e = s.readStack e := rfl

@[simp] theorem State.writeByte_pixel (s : State) (a : Nat) (v : Byte) (qx qy : Nat) :
    (s.writeByte a v).pixel qx qy = s.pixel qx qy := rfl

@[simp] theorem State.writeByte_indexed (s : State) (a : Nat) (v : Byte) (off : Nat) :
    (s.writeByte a v).indexed off = s.indexed off := rfl

@[simp] theorem State.writeByte_nextRnd (s : State) (a : Nat) (v : Byte) :
    (s.writeByte a v).nextRnd = s.nextRnd := rfl

/-! ### `writeV` -/

@[simp] theorem State.writeV_config (s : State) (r : Reg) (v : Byte) :
    (s.writeV r v).config = s.config := rfl

@[simp] theorem State.writeV_mem (s : State) (r : Reg) (v : Byte) :
    (s.writeV r v).mem = s.mem := rfl

@[simp] theorem State.writeV_V (s : State) (r : Reg) (v : Byte) :
    (s.writeV r v).V = s.V.set r.val v r.isLt := rfl

@[simp] theorem State.writeV_I (s : State) (r : Reg) (v : Byte) :
    (s.writeV r v).I = s.I := rfl

@[simp] theorem State.writeV_PC (s : State) (r : Reg) (v : Byte) :
    (s.writeV r v).PC = s.PC := rfl

@[simp] theorem State.writeV_stack (s : State) (r : Reg) (v : Byte) :
    (s.writeV r v).stack = s.stack := rfl

@[simp] theorem State.writeV_SP (s : State) (r : Reg) (v : Byte) :
    (s.writeV r v).SP = s.SP := rfl

@[simp] theorem State.writeV_DT (s : State) (r : Reg) (v : Byte) :
    (s.writeV r v).DT = s.DT := rfl

@[simp] theorem State.writeV_ST (s : State) (r : Reg) (v : Byte) :
    (s.writeV r v).ST = s.ST := rfl

@[simp] theorem State.writeV_fb (s : State) (r : Reg) (v : Byte) :
    (s.writeV r v).fb = s.fb := rfl

@[simp] theorem State.writeV_WAIT (s : State) (r : Reg) (v : Byte) :
    (s.writeV r v).WAIT = s.WAIT := rfl

@[simp] theorem State.writeV_keys (s : State) (r : Reg) (v : Byte) :
    (s.writeV r v).keys = s.keys := rfl

@[simp] theorem State.writeV_dirty (s : State) (r : Reg) (v : Byte) :
    (s.writeV r v).dirty = s.dirty := rfl

@[simp] theorem State.writeV_diags (s : State) (r : Reg) (v : Byte) :
    (s.writeV r v).diags = s.diags := rfl

@[simp] theorem State.writeV_phase (s : State) (r : Reg) (v : Byte) :
    (s.writeV r v).phase = s.phase := rfl

@[simp] theorem State.writeV_agenda (s : State) (r : Reg) (v : Byte) :
    (s.writeV r v).agenda = s.agenda := rfl

@[simp] theorem State.writeV_rndAnswers (s : State) (r : Reg) (v : Byte) :
    (s.writeV r v).rndAnswers = s.rndAnswers := rfl

@[simp] theorem State.writeV_rndDraws (s : State) (r : Reg) (v : Byte) :
    (s.writeV r v).rndDraws = s.rndDraws := rfl

@[simp] theorem State.writeV_readByte (s : State) (r : Reg) (v : Byte) (adr : Nat) :
    (s.writeV r v).readByte adr = s.readByte adr := rfl

@[simp] theorem State.writeV_readStack (s : State) (r : Reg) (v : Byte) (e : Nibble) :
    (s.writeV r v).readStack e = s.readStack e := rfl

@[simp] theorem State.writeV_pixel (s : State) (r : Reg) (v : Byte) (qx qy : Nat) :
    (s.writeV r v).pixel qx qy = s.pixel qx qy := rfl

@[simp] theorem State.writeV_indexed (s : State) (r : Reg) (v : Byte) (off : Nat) :
    (s.writeV r v).indexed off = s.indexed off := rfl

@[simp] theorem State.writeV_nextRnd (s : State) (r : Reg) (v : Byte) :
    (s.writeV r v).nextRnd = s.nextRnd := rfl

/-! ### `writeI` -/

@[simp] theorem State.writeI_config (s : State) (v : Word) :
    (s.writeI v).config = s.config := rfl

@[simp] theorem State.writeI_mem (s : State) (v : Word) :
    (s.writeI v).mem = s.mem := rfl

@[simp] theorem State.writeI_V (s : State) (v : Word) :
    (s.writeI v).V = s.V := rfl

@[simp] theorem State.writeI_I (s : State) (v : Word) :
    (s.writeI v).I = maskIndex s.config.iMaskOnWrite v := rfl

@[simp] theorem State.writeI_PC (s : State) (v : Word) :
    (s.writeI v).PC = s.PC := rfl

@[simp] theorem State.writeI_stack (s : State) (v : Word) :
    (s.writeI v).stack = s.stack := rfl

@[simp] theorem State.writeI_SP (s : State) (v : Word) :
    (s.writeI v).SP = s.SP := rfl

@[simp] theorem State.writeI_DT (s : State) (v : Word) :
    (s.writeI v).DT = s.DT := rfl

@[simp] theorem State.writeI_ST (s : State) (v : Word) :
    (s.writeI v).ST = s.ST := rfl

@[simp] theorem State.writeI_fb (s : State) (v : Word) :
    (s.writeI v).fb = s.fb := rfl

@[simp] theorem State.writeI_WAIT (s : State) (v : Word) :
    (s.writeI v).WAIT = s.WAIT := rfl

@[simp] theorem State.writeI_keys (s : State) (v : Word) :
    (s.writeI v).keys = s.keys := rfl

@[simp] theorem State.writeI_dirty (s : State) (v : Word) :
    (s.writeI v).dirty = s.dirty := rfl

@[simp] theorem State.writeI_diags (s : State) (v : Word) :
    (s.writeI v).diags = s.diags := rfl

@[simp] theorem State.writeI_phase (s : State) (v : Word) :
    (s.writeI v).phase = s.phase := rfl

@[simp] theorem State.writeI_agenda (s : State) (v : Word) :
    (s.writeI v).agenda = s.agenda := rfl

@[simp] theorem State.writeI_rndAnswers (s : State) (v : Word) :
    (s.writeI v).rndAnswers = s.rndAnswers := rfl

@[simp] theorem State.writeI_rndDraws (s : State) (v : Word) :
    (s.writeI v).rndDraws = s.rndDraws := rfl

@[simp] theorem State.writeI_readByte (s : State) (v : Word) (adr : Nat) :
    (s.writeI v).readByte adr = s.readByte adr := rfl

@[simp] theorem State.writeI_readV (s : State) (v : Word) (q : Reg) :
    (s.writeI v).readV q = s.readV q := rfl

@[simp] theorem State.writeI_readStack (s : State) (v : Word) (e : Nibble) :
    (s.writeI v).readStack e = s.readStack e := rfl

@[simp] theorem State.writeI_pixel (s : State) (v : Word) (qx qy : Nat) :
    (s.writeI v).pixel qx qy = s.pixel qx qy := rfl

@[simp] theorem State.writeI_nextRnd (s : State) (v : Word) :
    (s.writeI v).nextRnd = s.nextRnd := rfl

/-! ### `writePC` -/

@[simp] theorem State.writePC_config (s : State) (v : Word) :
    (s.writePC v).config = s.config := rfl

@[simp] theorem State.writePC_mem (s : State) (v : Word) :
    (s.writePC v).mem = s.mem := rfl

@[simp] theorem State.writePC_V (s : State) (v : Word) :
    (s.writePC v).V = s.V := rfl

@[simp] theorem State.writePC_I (s : State) (v : Word) :
    (s.writePC v).I = s.I := rfl

@[simp] theorem State.writePC_PC (s : State) (v : Word) :
    (s.writePC v).PC = v := rfl

@[simp] theorem State.writePC_stack (s : State) (v : Word) :
    (s.writePC v).stack = s.stack := rfl

@[simp] theorem State.writePC_SP (s : State) (v : Word) :
    (s.writePC v).SP = s.SP := rfl

@[simp] theorem State.writePC_DT (s : State) (v : Word) :
    (s.writePC v).DT = s.DT := rfl

@[simp] theorem State.writePC_ST (s : State) (v : Word) :
    (s.writePC v).ST = s.ST := rfl

@[simp] theorem State.writePC_fb (s : State) (v : Word) :
    (s.writePC v).fb = s.fb := rfl

@[simp] theorem State.writePC_WAIT (s : State) (v : Word) :
    (s.writePC v).WAIT = s.WAIT := rfl

@[simp] theorem State.writePC_keys (s : State) (v : Word) :
    (s.writePC v).keys = s.keys := rfl

@[simp] theorem State.writePC_dirty (s : State) (v : Word) :
    (s.writePC v).dirty = s.dirty := rfl

@[simp] theorem State.writePC_diags (s : State) (v : Word) :
    (s.writePC v).diags = s.diags := rfl

@[simp] theorem State.writePC_phase (s : State) (v : Word) :
    (s.writePC v).phase = s.phase := rfl

@[simp] theorem State.writePC_agenda (s : State) (v : Word) :
    (s.writePC v).agenda = s.agenda := rfl

@[simp] theorem State.writePC_rndAnswers (s : State) (v : Word) :
    (s.writePC v).rndAnswers = s.rndAnswers := rfl

@[simp] theorem State.writePC_rndDraws (s : State) (v : Word) :
    (s.writePC v).rndDraws = s.rndDraws := rfl

@[simp] theorem State.writePC_readByte (s : State) (v : Word) (adr : Nat) :
    (s.writePC v).readByte adr = s.readByte adr := rfl

@[simp] theorem State.writePC_readV (s : State) (v : Word) (q : Reg) :
    (s.writePC v).readV q = s.readV q := rfl

@[simp] theorem State.writePC_readStack (s : State) (v : Word) (e : Nibble) :
    (s.writePC v).readStack e = s.readStack e := rfl

@[simp] theorem State.writePC_pixel (s : State) (v : Word) (qx qy : Nat) :
    (s.writePC v).pixel qx qy = s.pixel qx qy := rfl

@[simp] theorem State.writePC_indexed (s : State) (v : Word) (off : Nat) :
    (s.writePC v).indexed off = s.indexed off := rfl

@[simp] theorem State.writePC_nextRnd (s : State) (v : Word) :
    (s.writePC v).nextRnd = s.nextRnd := rfl

/-! ### `writeDT` -/

@[simp] theorem State.writeDT_config (s : State) (v : Byte) :
    (s.writeDT v).config = s.config := rfl

@[simp] theorem State.writeDT_mem (s : State) (v : Byte) :
    (s.writeDT v).mem = s.mem := rfl

@[simp] theorem State.writeDT_V (s : State) (v : Byte) :
    (s.writeDT v).V = s.V := rfl

@[simp] theorem State.writeDT_I (s : State) (v : Byte) :
    (s.writeDT v).I = s.I := rfl

@[simp] theorem State.writeDT_PC (s : State) (v : Byte) :
    (s.writeDT v).PC = s.PC := rfl

@[simp] theorem State.writeDT_stack (s : State) (v : Byte) :
    (s.writeDT v).stack = s.stack := rfl

@[simp] theorem State.writeDT_SP (s : State) (v : Byte) :
    (s.writeDT v).SP = s.SP := rfl

@[simp] theorem State.writeDT_DT (s : State) (v : Byte) :
    (s.writeDT v).DT = v := rfl

@[simp] theorem State.writeDT_ST (s : State) (v : Byte) :
    (s.writeDT v).ST = s.ST := rfl

@[simp] theorem State.writeDT_fb (s : State) (v : Byte) :
    (s.writeDT v).fb = s.fb := rfl

@[simp] theorem State.writeDT_WAIT (s : State) (v : Byte) :
    (s.writeDT v).WAIT = s.WAIT := rfl

@[simp] theorem State.writeDT_keys (s : State) (v : Byte) :
    (s.writeDT v).keys = s.keys := rfl

@[simp] theorem State.writeDT_dirty (s : State) (v : Byte) :
    (s.writeDT v).dirty = s.dirty := rfl

@[simp] theorem State.writeDT_diags (s : State) (v : Byte) :
    (s.writeDT v).diags = s.diags := rfl

@[simp] theorem State.writeDT_phase (s : State) (v : Byte) :
    (s.writeDT v).phase = s.phase := rfl

@[simp] theorem State.writeDT_agenda (s : State) (v : Byte) :
    (s.writeDT v).agenda = s.agenda := rfl

@[simp] theorem State.writeDT_rndAnswers (s : State) (v : Byte) :
    (s.writeDT v).rndAnswers = s.rndAnswers := rfl

@[simp] theorem State.writeDT_rndDraws (s : State) (v : Byte) :
    (s.writeDT v).rndDraws = s.rndDraws := rfl

@[simp] theorem State.writeDT_readByte (s : State) (v : Byte) (adr : Nat) :
    (s.writeDT v).readByte adr = s.readByte adr := rfl

@[simp] theorem State.writeDT_readV (s : State) (v : Byte) (q : Reg) :
    (s.writeDT v).readV q = s.readV q := rfl

@[simp] theorem State.writeDT_readStack (s : State) (v : Byte) (e : Nibble) :
    (s.writeDT v).readStack e = s.readStack e := rfl

@[simp] theorem State.writeDT_pixel (s : State) (v : Byte) (qx qy : Nat) :
    (s.writeDT v).pixel qx qy = s.pixel qx qy := rfl

@[simp] theorem State.writeDT_indexed (s : State) (v : Byte) (off : Nat) :
    (s.writeDT v).indexed off = s.indexed off := rfl

@[simp] theorem State.writeDT_nextRnd (s : State) (v : Byte) :
    (s.writeDT v).nextRnd = s.nextRnd := rfl

/-! ### `writeST` -/

@[simp] theorem State.writeST_config (s : State) (v : Byte) :
    (s.writeST v).config = s.config := rfl

@[simp] theorem State.writeST_mem (s : State) (v : Byte) :
    (s.writeST v).mem = s.mem := rfl

@[simp] theorem State.writeST_V (s : State) (v : Byte) :
    (s.writeST v).V = s.V := rfl

@[simp] theorem State.writeST_I (s : State) (v : Byte) :
    (s.writeST v).I = s.I := rfl

@[simp] theorem State.writeST_PC (s : State) (v : Byte) :
    (s.writeST v).PC = s.PC := rfl

@[simp] theorem State.writeST_stack (s : State) (v : Byte) :
    (s.writeST v).stack = s.stack := rfl

@[simp] theorem State.writeST_SP (s : State) (v : Byte) :
    (s.writeST v).SP = s.SP := rfl

@[simp] theorem State.writeST_DT (s : State) (v : Byte) :
    (s.writeST v).DT = s.DT := rfl

@[simp] theorem State.writeST_ST (s : State) (v : Byte) :
    (s.writeST v).ST = v := rfl

@[simp] theorem State.writeST_fb (s : State) (v : Byte) :
    (s.writeST v).fb = s.fb := rfl

@[simp] theorem State.writeST_WAIT (s : State) (v : Byte) :
    (s.writeST v).WAIT = s.WAIT := rfl

@[simp] theorem State.writeST_keys (s : State) (v : Byte) :
    (s.writeST v).keys = s.keys := rfl

@[simp] theorem State.writeST_dirty (s : State) (v : Byte) :
    (s.writeST v).dirty = s.dirty := rfl

@[simp] theorem State.writeST_diags (s : State) (v : Byte) :
    (s.writeST v).diags = s.diags := rfl

@[simp] theorem State.writeST_phase (s : State) (v : Byte) :
    (s.writeST v).phase = s.phase := rfl

@[simp] theorem State.writeST_agenda (s : State) (v : Byte) :
    (s.writeST v).agenda = s.agenda := rfl

@[simp] theorem State.writeST_rndAnswers (s : State) (v : Byte) :
    (s.writeST v).rndAnswers = s.rndAnswers := rfl

@[simp] theorem State.writeST_rndDraws (s : State) (v : Byte) :
    (s.writeST v).rndDraws = s.rndDraws := rfl

@[simp] theorem State.writeST_readByte (s : State) (v : Byte) (adr : Nat) :
    (s.writeST v).readByte adr = s.readByte adr := rfl

@[simp] theorem State.writeST_readV (s : State) (v : Byte) (q : Reg) :
    (s.writeST v).readV q = s.readV q := rfl

@[simp] theorem State.writeST_readStack (s : State) (v : Byte) (e : Nibble) :
    (s.writeST v).readStack e = s.readStack e := rfl

@[simp] theorem State.writeST_pixel (s : State) (v : Byte) (qx qy : Nat) :
    (s.writeST v).pixel qx qy = s.pixel qx qy := rfl

@[simp] theorem State.writeST_indexed (s : State) (v : Byte) (off : Nat) :
    (s.writeST v).indexed off = s.indexed off := rfl

@[simp] theorem State.writeST_nextRnd (s : State) (v : Byte) :
    (s.writeST v).nextRnd = s.nextRnd := rfl

/-! ### `writeWAIT` -/

@[simp] theorem State.writeWAIT_config (s : State) (w : Option Reg) :
    (s.writeWAIT w).config = s.config := rfl

@[simp] theorem State.writeWAIT_mem (s : State) (w : Option Reg) :
    (s.writeWAIT w).mem = s.mem := rfl

@[simp] theorem State.writeWAIT_V (s : State) (w : Option Reg) :
    (s.writeWAIT w).V = s.V := rfl

@[simp] theorem State.writeWAIT_I (s : State) (w : Option Reg) :
    (s.writeWAIT w).I = s.I := rfl

@[simp] theorem State.writeWAIT_PC (s : State) (w : Option Reg) :
    (s.writeWAIT w).PC = s.PC := rfl

@[simp] theorem State.writeWAIT_stack (s : State) (w : Option Reg) :
    (s.writeWAIT w).stack = s.stack := rfl

@[simp] theorem State.writeWAIT_SP (s : State) (w : Option Reg) :
    (s.writeWAIT w).SP = s.SP := rfl

@[simp] theorem State.writeWAIT_DT (s : State) (w : Option Reg) :
    (s.writeWAIT w).DT = s.DT := rfl

@[simp] theorem State.writeWAIT_ST (s : State) (w : Option Reg) :
    (s.writeWAIT w).ST = s.ST := rfl

@[simp] theorem State.writeWAIT_fb (s : State) (w : Option Reg) :
    (s.writeWAIT w).fb = s.fb := rfl

@[simp] theorem State.writeWAIT_WAIT (s : State) (w : Option Reg) :
    (s.writeWAIT w).WAIT = w := rfl

@[simp] theorem State.writeWAIT_keys (s : State) (w : Option Reg) :
    (s.writeWAIT w).keys = s.keys := rfl

@[simp] theorem State.writeWAIT_dirty (s : State) (w : Option Reg) :
    (s.writeWAIT w).dirty = s.dirty := rfl

@[simp] theorem State.writeWAIT_diags (s : State) (w : Option Reg) :
    (s.writeWAIT w).diags = s.diags := rfl

@[simp] theorem State.writeWAIT_phase (s : State) (w : Option Reg) :
    (s.writeWAIT w).phase = s.phase := rfl

@[simp] theorem State.writeWAIT_agenda (s : State) (w : Option Reg) :
    (s.writeWAIT w).agenda = s.agenda := rfl

@[simp] theorem State.writeWAIT_rndAnswers (s : State) (w : Option Reg) :
    (s.writeWAIT w).rndAnswers = s.rndAnswers := rfl

@[simp] theorem State.writeWAIT_rndDraws (s : State) (w : Option Reg) :
    (s.writeWAIT w).rndDraws = s.rndDraws := rfl

@[simp] theorem State.writeWAIT_readByte (s : State) (w : Option Reg) (adr : Nat) :
    (s.writeWAIT w).readByte adr = s.readByte adr := rfl

@[simp] theorem State.writeWAIT_readV (s : State) (w : Option Reg) (q : Reg) :
    (s.writeWAIT w).readV q = s.readV q := rfl

@[simp] theorem State.writeWAIT_readStack (s : State) (w : Option Reg) (e : Nibble) :
    (s.writeWAIT w).readStack e = s.readStack e := rfl

@[simp] theorem State.writeWAIT_pixel (s : State) (w : Option Reg) (qx qy : Nat) :
    (s.writeWAIT w).pixel qx qy = s.pixel qx qy := rfl

@[simp] theorem State.writeWAIT_indexed (s : State) (w : Option Reg) (off : Nat) :
    (s.writeWAIT w).indexed off = s.indexed off := rfl

@[simp] theorem State.writeWAIT_nextRnd (s : State) (w : Option Reg) :
    (s.writeWAIT w).nextRnd = s.nextRnd := rfl

/-! ### `writeDirty` -/

@[simp] theorem State.writeDirty_config (s : State) (d : Bool) :
    (s.writeDirty d).config = s.config := rfl

@[simp] theorem State.writeDirty_mem (s : State) (d : Bool) :
    (s.writeDirty d).mem = s.mem := rfl

@[simp] theorem State.writeDirty_V (s : State) (d : Bool) :
    (s.writeDirty d).V = s.V := rfl

@[simp] theorem State.writeDirty_I (s : State) (d : Bool) :
    (s.writeDirty d).I = s.I := rfl

@[simp] theorem State.writeDirty_PC (s : State) (d : Bool) :
    (s.writeDirty d).PC = s.PC := rfl

@[simp] theorem State.writeDirty_stack (s : State) (d : Bool) :
    (s.writeDirty d).stack = s.stack := rfl

@[simp] theorem State.writeDirty_SP (s : State) (d : Bool) :
    (s.writeDirty d).SP = s.SP := rfl

@[simp] theorem State.writeDirty_DT (s : State) (d : Bool) :
    (s.writeDirty d).DT = s.DT := rfl

@[simp] theorem State.writeDirty_ST (s : State) (d : Bool) :
    (s.writeDirty d).ST = s.ST := rfl

@[simp] theorem State.writeDirty_fb (s : State) (d : Bool) :
    (s.writeDirty d).fb = s.fb := rfl

@[simp] theorem State.writeDirty_WAIT (s : State) (d : Bool) :
    (s.writeDirty d).WAIT = s.WAIT := rfl

@[simp] theorem State.writeDirty_keys (s : State) (d : Bool) :
    (s.writeDirty d).keys = s.keys := rfl

@[simp] theorem State.writeDirty_dirty (s : State) (d : Bool) :
    (s.writeDirty d).dirty = d := rfl

@[simp] theorem State.writeDirty_diags (s : State) (d : Bool) :
    (s.writeDirty d).diags = s.diags := rfl

@[simp] theorem State.writeDirty_phase (s : State) (d : Bool) :
    (s.writeDirty d).phase = s.phase := rfl

@[simp] theorem State.writeDirty_agenda (s : State) (d : Bool) :
    (s.writeDirty d).agenda = s.agenda := rfl

@[simp] theorem State.writeDirty_rndAnswers (s : State) (d : Bool) :
    (s.writeDirty d).rndAnswers = s.rndAnswers := rfl

@[simp] theorem State.writeDirty_rndDraws (s : State) (d : Bool) :
    (s.writeDirty d).rndDraws = s.rndDraws := rfl

@[simp] theorem State.writeDirty_readByte (s : State) (d : Bool) (adr : Nat) :
    (s.writeDirty d).readByte adr = s.readByte adr := rfl

@[simp] theorem State.writeDirty_readV (s : State) (d : Bool) (q : Reg) :
    (s.writeDirty d).readV q = s.readV q := rfl

@[simp] theorem State.writeDirty_readStack (s : State) (d : Bool) (e : Nibble) :
    (s.writeDirty d).readStack e = s.readStack e := rfl

@[simp] theorem State.writeDirty_pixel (s : State) (d : Bool) (qx qy : Nat) :
    (s.writeDirty d).pixel qx qy = s.pixel qx qy := rfl

@[simp] theorem State.writeDirty_indexed (s : State) (d : Bool) (off : Nat) :
    (s.writeDirty d).indexed off = s.indexed off := rfl

@[simp] theorem State.writeDirty_nextRnd (s : State) (d : Bool) :
    (s.writeDirty d).nextRnd = s.nextRnd := rfl

/-! ### `push` -/

@[simp] theorem State.push_config (s : State) (v : Word) :
    (s.push v).config = s.config := rfl

@[simp] theorem State.push_mem (s : State) (v : Word) :
    (s.push v).mem = s.mem := rfl

@[simp] theorem State.push_V (s : State) (v : Word) :
    (s.push v).V = s.V := rfl

@[simp] theorem State.push_I (s : State) (v : Word) :
    (s.push v).I = s.I := rfl

@[simp] theorem State.push_PC (s : State) (v : Word) :
    (s.push v).PC = s.PC := rfl

@[simp] theorem State.push_stack (s : State) (v : Word) :
    (s.push v).stack = s.stack.set s.SP.toNat v s.SP.isLt := rfl

@[simp] theorem State.push_SP (s : State) (v : Word) :
    (s.push v).SP = s.SP + 1#4 := rfl

@[simp] theorem State.push_DT (s : State) (v : Word) :
    (s.push v).DT = s.DT := rfl

@[simp] theorem State.push_ST (s : State) (v : Word) :
    (s.push v).ST = s.ST := rfl

@[simp] theorem State.push_fb (s : State) (v : Word) :
    (s.push v).fb = s.fb := rfl

@[simp] theorem State.push_WAIT (s : State) (v : Word) :
    (s.push v).WAIT = s.WAIT := rfl

@[simp] theorem State.push_keys (s : State) (v : Word) :
    (s.push v).keys = s.keys := rfl

@[simp] theorem State.push_dirty (s : State) (v : Word) :
    (s.push v).dirty = s.dirty := rfl

@[simp] theorem State.push_diags (s : State) (v : Word) :
    (s.push v).diags = s.diags := rfl

@[simp] theorem State.push_phase (s : State) (v : Word) :
    (s.push v).phase = s.phase := rfl

@[simp] theorem State.push_agenda (s : State) (v : Word) :
    (s.push v).agenda = s.agenda := rfl

@[simp] theorem State.push_rndAnswers (s : State) (v : Word) :
    (s.push v).rndAnswers = s.rndAnswers := rfl

@[simp] theorem State.push_rndDraws (s : State) (v : Word) :
    (s.push v).rndDraws = s.rndDraws := rfl

@[simp] theorem State.push_readByte (s : State) (v : Word) (adr : Nat) :
    (s.push v).readByte adr = s.readByte adr := rfl

@[simp] theorem State.push_readV (s : State) (v : Word) (q : Reg) :
    (s.push v).readV q = s.readV q := rfl

@[simp] theorem State.push_pixel (s : State) (v : Word) (qx qy : Nat) :
    (s.push v).pixel qx qy = s.pixel qx qy := rfl

@[simp] theorem State.push_indexed (s : State) (v : Word) (off : Nat) :
    (s.push v).indexed off = s.indexed off := rfl

@[simp] theorem State.push_nextRnd (s : State) (v : Word) :
    (s.push v).nextRnd = s.nextRnd := rfl

/-! ### `pop` -/

@[simp] theorem State.pop_config (s : State) :
    (s.pop.2).config = s.config := rfl

@[simp] theorem State.pop_mem (s : State) :
    (s.pop.2).mem = s.mem := rfl

@[simp] theorem State.pop_V (s : State) :
    (s.pop.2).V = s.V := rfl

@[simp] theorem State.pop_I (s : State) :
    (s.pop.2).I = s.I := rfl

@[simp] theorem State.pop_PC (s : State) :
    (s.pop.2).PC = s.PC := rfl

@[simp] theorem State.pop_stack (s : State) :
    (s.pop.2).stack = s.stack := rfl

@[simp] theorem State.pop_SP (s : State) :
    (s.pop.2).SP = s.SP - 1#4 := rfl

@[simp] theorem State.pop_DT (s : State) :
    (s.pop.2).DT = s.DT := rfl

@[simp] theorem State.pop_ST (s : State) :
    (s.pop.2).ST = s.ST := rfl

@[simp] theorem State.pop_fb (s : State) :
    (s.pop.2).fb = s.fb := rfl

@[simp] theorem State.pop_WAIT (s : State) :
    (s.pop.2).WAIT = s.WAIT := rfl

@[simp] theorem State.pop_keys (s : State) :
    (s.pop.2).keys = s.keys := rfl

@[simp] theorem State.pop_dirty (s : State) :
    (s.pop.2).dirty = s.dirty := rfl

@[simp] theorem State.pop_diags (s : State) :
    (s.pop.2).diags = s.diags := rfl

@[simp] theorem State.pop_phase (s : State) :
    (s.pop.2).phase = s.phase := rfl

@[simp] theorem State.pop_agenda (s : State) :
    (s.pop.2).agenda = s.agenda := rfl

@[simp] theorem State.pop_rndAnswers (s : State) :
    (s.pop.2).rndAnswers = s.rndAnswers := rfl

@[simp] theorem State.pop_rndDraws (s : State) :
    (s.pop.2).rndDraws = s.rndDraws := rfl

@[simp] theorem State.pop_readByte (s : State) (adr : Nat) :
    (s.pop.2).readByte adr = s.readByte adr := rfl

@[simp] theorem State.pop_readV (s : State) (q : Reg) :
    (s.pop.2).readV q = s.readV q := rfl

@[simp] theorem State.pop_readStack (s : State) (e : Nibble) :
    (s.pop.2).readStack e = s.readStack e := rfl

@[simp] theorem State.pop_pixel (s : State) (qx qy : Nat) :
    (s.pop.2).pixel qx qy = s.pixel qx qy := rfl

@[simp] theorem State.pop_indexed (s : State) (off : Nat) :
    (s.pop.2).indexed off = s.indexed off := rfl

@[simp] theorem State.pop_nextRnd (s : State) :
    (s.pop.2).nextRnd = s.nextRnd := rfl

/-! ### `writePixel` -/

@[simp] theorem State.writePixel_config (s : State) (px py : Nat) (b : Bool) :
    (s.writePixel px py b).config = s.config := rfl

@[simp] theorem State.writePixel_mem (s : State) (px py : Nat) (b : Bool) :
    (s.writePixel px py b).mem = s.mem := rfl

@[simp] theorem State.writePixel_V (s : State) (px py : Nat) (b : Bool) :
    (s.writePixel px py b).V = s.V := rfl

@[simp] theorem State.writePixel_I (s : State) (px py : Nat) (b : Bool) :
    (s.writePixel px py b).I = s.I := rfl

@[simp] theorem State.writePixel_PC (s : State) (px py : Nat) (b : Bool) :
    (s.writePixel px py b).PC = s.PC := rfl

@[simp] theorem State.writePixel_stack (s : State) (px py : Nat) (b : Bool) :
    (s.writePixel px py b).stack = s.stack := rfl

@[simp] theorem State.writePixel_SP (s : State) (px py : Nat) (b : Bool) :
    (s.writePixel px py b).SP = s.SP := rfl

@[simp] theorem State.writePixel_DT (s : State) (px py : Nat) (b : Bool) :
    (s.writePixel px py b).DT = s.DT := rfl

@[simp] theorem State.writePixel_ST (s : State) (px py : Nat) (b : Bool) :
    (s.writePixel px py b).ST = s.ST := rfl

@[simp] theorem State.writePixel_fb (s : State) (px py : Nat) (b : Bool) :
    (s.writePixel px py b).fb = if InGrid s px py then Framebuffer.put s.fb px py b else s.fb := rfl

@[simp] theorem State.writePixel_WAIT (s : State) (px py : Nat) (b : Bool) :
    (s.writePixel px py b).WAIT = s.WAIT := rfl

@[simp] theorem State.writePixel_keys (s : State) (px py : Nat) (b : Bool) :
    (s.writePixel px py b).keys = s.keys := rfl

@[simp] theorem State.writePixel_dirty (s : State) (px py : Nat) (b : Bool) :
    (s.writePixel px py b).dirty = s.dirty := rfl

@[simp] theorem State.writePixel_diags (s : State) (px py : Nat) (b : Bool) :
    (s.writePixel px py b).diags = s.diags := rfl

@[simp] theorem State.writePixel_phase (s : State) (px py : Nat) (b : Bool) :
    (s.writePixel px py b).phase = s.phase := rfl

@[simp] theorem State.writePixel_agenda (s : State) (px py : Nat) (b : Bool) :
    (s.writePixel px py b).agenda = s.agenda := rfl

@[simp] theorem State.writePixel_rndAnswers (s : State) (px py : Nat) (b : Bool) :
    (s.writePixel px py b).rndAnswers = s.rndAnswers := rfl

@[simp] theorem State.writePixel_rndDraws (s : State) (px py : Nat) (b : Bool) :
    (s.writePixel px py b).rndDraws = s.rndDraws := rfl

@[simp] theorem State.writePixel_readByte (s : State) (px py : Nat) (b : Bool) (adr : Nat) :
    (s.writePixel px py b).readByte adr = s.readByte adr := rfl

@[simp] theorem State.writePixel_readV (s : State) (px py : Nat) (b : Bool) (q : Reg) :
    (s.writePixel px py b).readV q = s.readV q := rfl

@[simp] theorem State.writePixel_readStack (s : State) (px py : Nat) (b : Bool) (e : Nibble) :
    (s.writePixel px py b).readStack e = s.readStack e := rfl

@[simp] theorem State.writePixel_indexed (s : State) (px py : Nat) (b : Bool) (off : Nat) :
    (s.writePixel px py b).indexed off = s.indexed off := rfl

@[simp] theorem State.writePixel_nextRnd (s : State) (px py : Nat) (b : Bool) :
    (s.writePixel px py b).nextRnd = s.nextRnd := rfl

/-! ### `clearPixels` -/

@[simp] theorem State.clearPixels_config (s : State) :
    (s.clearPixels).config = s.config := rfl

@[simp] theorem State.clearPixels_mem (s : State) :
    (s.clearPixels).mem = s.mem := rfl

@[simp] theorem State.clearPixels_V (s : State) :
    (s.clearPixels).V = s.V := rfl

@[simp] theorem State.clearPixels_I (s : State) :
    (s.clearPixels).I = s.I := rfl

@[simp] theorem State.clearPixels_PC (s : State) :
    (s.clearPixels).PC = s.PC := rfl

@[simp] theorem State.clearPixels_stack (s : State) :
    (s.clearPixels).stack = s.stack := rfl

@[simp] theorem State.clearPixels_SP (s : State) :
    (s.clearPixels).SP = s.SP := rfl

@[simp] theorem State.clearPixels_DT (s : State) :
    (s.clearPixels).DT = s.DT := rfl

@[simp] theorem State.clearPixels_ST (s : State) :
    (s.clearPixels).ST = s.ST := rfl

@[simp] theorem State.clearPixels_fb (s : State) :
    (s.clearPixels).fb = [] := rfl

@[simp] theorem State.clearPixels_WAIT (s : State) :
    (s.clearPixels).WAIT = s.WAIT := rfl

@[simp] theorem State.clearPixels_keys (s : State) :
    (s.clearPixels).keys = s.keys := rfl

@[simp] theorem State.clearPixels_dirty (s : State) :
    (s.clearPixels).dirty = s.dirty := rfl

@[simp] theorem State.clearPixels_diags (s : State) :
    (s.clearPixels).diags = s.diags := rfl

@[simp] theorem State.clearPixels_phase (s : State) :
    (s.clearPixels).phase = s.phase := rfl

@[simp] theorem State.clearPixels_agenda (s : State) :
    (s.clearPixels).agenda = s.agenda := rfl

@[simp] theorem State.clearPixels_rndAnswers (s : State) :
    (s.clearPixels).rndAnswers = s.rndAnswers := rfl

@[simp] theorem State.clearPixels_rndDraws (s : State) :
    (s.clearPixels).rndDraws = s.rndDraws := rfl

@[simp] theorem State.clearPixels_readByte (s : State) (adr : Nat) :
    (s.clearPixels).readByte adr = s.readByte adr := rfl

@[simp] theorem State.clearPixels_readV (s : State) (q : Reg) :
    (s.clearPixels).readV q = s.readV q := rfl

@[simp] theorem State.clearPixels_readStack (s : State) (e : Nibble) :
    (s.clearPixels).readStack e = s.readStack e := rfl

@[simp] theorem State.clearPixels_indexed (s : State) (off : Nat) :
    (s.clearPixels).indexed off = s.indexed off := rfl

@[simp] theorem State.clearPixels_nextRnd (s : State) :
    (s.clearPixels).nextRnd = s.nextRnd := rfl

/-! ### `raiseUnrecognized` -/

@[simp] theorem State.raiseUnrecognized_config (s : State) (w a : Word) :
    (s.raiseUnrecognized w a).config = s.config := rfl

@[simp] theorem State.raiseUnrecognized_mem (s : State) (w a : Word) :
    (s.raiseUnrecognized w a).mem = s.mem := rfl

@[simp] theorem State.raiseUnrecognized_V (s : State) (w a : Word) :
    (s.raiseUnrecognized w a).V = s.V := rfl

@[simp] theorem State.raiseUnrecognized_I (s : State) (w a : Word) :
    (s.raiseUnrecognized w a).I = s.I := rfl

@[simp] theorem State.raiseUnrecognized_PC (s : State) (w a : Word) :
    (s.raiseUnrecognized w a).PC = s.PC := rfl

@[simp] theorem State.raiseUnrecognized_stack (s : State) (w a : Word) :
    (s.raiseUnrecognized w a).stack = s.stack := rfl

@[simp] theorem State.raiseUnrecognized_SP (s : State) (w a : Word) :
    (s.raiseUnrecognized w a).SP = s.SP := rfl

@[simp] theorem State.raiseUnrecognized_DT (s : State) (w a : Word) :
    (s.raiseUnrecognized w a).DT = s.DT := rfl

@[simp] theorem State.raiseUnrecognized_ST (s : State) (w a : Word) :
    (s.raiseUnrecognized w a).ST = s.ST := rfl

@[simp] theorem State.raiseUnrecognized_fb (s : State) (w a : Word) :
    (s.raiseUnrecognized w a).fb = s.fb := rfl

@[simp] theorem State.raiseUnrecognized_WAIT (s : State) (w a : Word) :
    (s.raiseUnrecognized w a).WAIT = s.WAIT := rfl

@[simp] theorem State.raiseUnrecognized_keys (s : State) (w a : Word) :
    (s.raiseUnrecognized w a).keys = s.keys := rfl

@[simp] theorem State.raiseUnrecognized_dirty (s : State) (w a : Word) :
    (s.raiseUnrecognized w a).dirty = s.dirty := rfl

@[simp] theorem State.raiseUnrecognized_diags (s : State) (w a : Word) :
    (s.raiseUnrecognized w a).diags = s.diags ++ [{ word := w, addr := a.extractLsb' 0 12 }] := rfl

@[simp] theorem State.raiseUnrecognized_phase (s : State) (w a : Word) :
    (s.raiseUnrecognized w a).phase = s.phase := rfl

@[simp] theorem State.raiseUnrecognized_agenda (s : State) (w a : Word) :
    (s.raiseUnrecognized w a).agenda = s.agenda := rfl

@[simp] theorem State.raiseUnrecognized_rndAnswers (s : State) (w a : Word) :
    (s.raiseUnrecognized w a).rndAnswers = s.rndAnswers := rfl

@[simp] theorem State.raiseUnrecognized_rndDraws (s : State) (w a : Word) :
    (s.raiseUnrecognized w a).rndDraws = s.rndDraws := rfl

@[simp] theorem State.raiseUnrecognized_readByte (s : State) (w a : Word) (adr : Nat) :
    (s.raiseUnrecognized w a).readByte adr = s.readByte adr := rfl

@[simp] theorem State.raiseUnrecognized_readV (s : State) (w a : Word) (q : Reg) :
    (s.raiseUnrecognized w a).readV q = s.readV q := rfl

@[simp] theorem State.raiseUnrecognized_readStack (s : State) (w a : Word) (e : Nibble) :
    (s.raiseUnrecognized w a).readStack e = s.readStack e := rfl

@[simp] theorem State.raiseUnrecognized_pixel (s : State) (w a : Word) (qx qy : Nat) :
    (s.raiseUnrecognized w a).pixel qx qy = s.pixel qx qy := rfl

@[simp] theorem State.raiseUnrecognized_indexed (s : State) (w a : Word) (off : Nat) :
    (s.raiseUnrecognized w a).indexed off = s.indexed off := rfl

@[simp] theorem State.raiseUnrecognized_nextRnd (s : State) (w a : Word) :
    (s.raiseUnrecognized w a).nextRnd = s.nextRnd := rfl

/-! ### `advance` -/

@[simp] theorem State.advance_config (s : State) :
    (s.advance).config = s.config := rfl

@[simp] theorem State.advance_mem (s : State) :
    (s.advance).mem = s.mem := rfl

@[simp] theorem State.advance_V (s : State) :
    (s.advance).V = s.V := rfl

@[simp] theorem State.advance_I (s : State) :
    (s.advance).I = s.I := rfl

@[simp] theorem State.advance_PC (s : State) :
    (s.advance).PC = nextPC s.PC := rfl

@[simp] theorem State.advance_stack (s : State) :
    (s.advance).stack = s.stack := rfl

@[simp] theorem State.advance_SP (s : State) :
    (s.advance).SP = s.SP := rfl

@[simp] theorem State.advance_DT (s : State) :
    (s.advance).DT = s.DT := rfl

@[simp] theorem State.advance_ST (s : State) :
    (s.advance).ST = s.ST := rfl

@[simp] theorem State.advance_fb (s : State) :
    (s.advance).fb = s.fb := rfl

@[simp] theorem State.advance_WAIT (s : State) :
    (s.advance).WAIT = s.WAIT := rfl

@[simp] theorem State.advance_keys (s : State) :
    (s.advance).keys = s.keys := rfl

@[simp] theorem State.advance_dirty (s : State) :
    (s.advance).dirty = false := rfl

@[simp] theorem State.advance_diags (s : State) :
    (s.advance).diags = s.diags := rfl

@[simp] theorem State.advance_phase (s : State) :
    (s.advance).phase = Phase.running := rfl

@[simp] theorem State.advance_agenda (s : State) :
    (s.advance).agenda = s.agenda := rfl

@[simp] theorem State.advance_rndAnswers (s : State) :
    (s.advance).rndAnswers = s.rndAnswers := rfl

@[simp] theorem State.advance_rndDraws (s : State) :
    (s.advance).rndDraws = s.rndDraws := rfl

@[simp] theorem State.advance_readByte (s : State) (adr : Nat) :
    (s.advance).readByte adr = s.readByte adr := rfl

@[simp] theorem State.advance_readV (s : State) (q : Reg) :
    (s.advance).readV q = s.readV q := rfl

@[simp] theorem State.advance_readStack (s : State) (e : Nibble) :
    (s.advance).readStack e = s.readStack e := rfl

@[simp] theorem State.advance_pixel (s : State) (qx qy : Nat) :
    (s.advance).pixel qx qy = s.pixel qx qy := rfl

@[simp] theorem State.advance_indexed (s : State) (off : Nat) :
    (s.advance).indexed off = s.indexed off := rfl

@[simp] theorem State.advance_nextRnd (s : State) :
    (s.advance).nextRnd = s.nextRnd := rfl

/-! ### `setKey` -/

@[simp] theorem State.setKey_config (s : State) (k : Key) (b : Bool) :
    (s.setKey k b).config = s.config := rfl

@[simp] theorem State.setKey_mem (s : State) (k : Key) (b : Bool) :
    (s.setKey k b).mem = s.mem := rfl

@[simp] theorem State.setKey_V (s : State) (k : Key) (b : Bool) :
    (s.setKey k b).V = s.V := rfl

@[simp] theorem State.setKey_I (s : State) (k : Key) (b : Bool) :
    (s.setKey k b).I = s.I := rfl

@[simp] theorem State.setKey_PC (s : State) (k : Key) (b : Bool) :
    (s.setKey k b).PC = s.PC := rfl

@[simp] theorem State.setKey_stack (s : State) (k : Key) (b : Bool) :
    (s.setKey k b).stack = s.stack := rfl

@[simp] theorem State.setKey_SP (s : State) (k : Key) (b : Bool) :
    (s.setKey k b).SP = s.SP := rfl

@[simp] theorem State.setKey_DT (s : State) (k : Key) (b : Bool) :
    (s.setKey k b).DT = s.DT := rfl

@[simp] theorem State.setKey_ST (s : State) (k : Key) (b : Bool) :
    (s.setKey k b).ST = s.ST := rfl

@[simp] theorem State.setKey_fb (s : State) (k : Key) (b : Bool) :
    (s.setKey k b).fb = s.fb := rfl

@[simp] theorem State.setKey_WAIT (s : State) (k : Key) (b : Bool) :
    (s.setKey k b).WAIT = s.WAIT := rfl

@[simp] theorem State.setKey_keys (s : State) (k : Key) (b : Bool) :
    (s.setKey k b).keys = s.keys.set k.val b k.isLt := rfl

@[simp] theorem State.setKey_dirty (s : State) (k : Key) (b : Bool) :
    (s.setKey k b).dirty = s.dirty := rfl

@[simp] theorem State.setKey_diags (s : State) (k : Key) (b : Bool) :
    (s.setKey k b).diags = s.diags := rfl

@[simp] theorem State.setKey_phase (s : State) (k : Key) (b : Bool) :
    (s.setKey k b).phase = s.phase := rfl

@[simp] theorem State.setKey_agenda (s : State) (k : Key) (b : Bool) :
    (s.setKey k b).agenda = s.agenda := rfl

@[simp] theorem State.setKey_rndAnswers (s : State) (k : Key) (b : Bool) :
    (s.setKey k b).rndAnswers = s.rndAnswers := rfl

@[simp] theorem State.setKey_rndDraws (s : State) (k : Key) (b : Bool) :
    (s.setKey k b).rndDraws = s.rndDraws := rfl

@[simp] theorem State.setKey_readByte (s : State) (k : Key) (b : Bool) (adr : Nat) :
    (s.setKey k b).readByte adr = s.readByte adr := rfl

@[simp] theorem State.setKey_readV (s : State) (k : Key) (b : Bool) (q : Reg) :
    (s.setKey k b).readV q = s.readV q := rfl

@[simp] theorem State.setKey_readStack (s : State) (k : Key) (b : Bool) (e : Nibble) :
    (s.setKey k b).readStack e = s.readStack e := rfl

@[simp] theorem State.setKey_pixel (s : State) (k : Key) (b : Bool) (qx qy : Nat) :
    (s.setKey k b).pixel qx qy = s.pixel qx qy := rfl

@[simp] theorem State.setKey_indexed (s : State) (k : Key) (b : Bool) (off : Nat) :
    (s.setKey k b).indexed off = s.indexed off := rfl

@[simp] theorem State.setKey_nextRnd (s : State) (k : Key) (b : Bool) :
    (s.setKey k b).nextRnd = s.nextRnd := rfl

/-! ### `quit` -/

@[simp] theorem State.quit_config (s : State) :
    (s.quit).config = s.config := rfl

@[simp] theorem State.quit_mem (s : State) :
    (s.quit).mem = s.mem := rfl

@[simp] theorem State.quit_V (s : State) :
    (s.quit).V = s.V := rfl

@[simp] theorem State.quit_I (s : State) :
    (s.quit).I = s.I := rfl

@[simp] theorem State.quit_PC (s : State) :
    (s.quit).PC = s.PC := rfl

@[simp] theorem State.quit_stack (s : State) :
    (s.quit).stack = s.stack := rfl

@[simp] theorem State.quit_SP (s : State) :
    (s.quit).SP = s.SP := rfl

@[simp] theorem State.quit_DT (s : State) :
    (s.quit).DT = s.DT := rfl

@[simp] theorem State.quit_ST (s : State) :
    (s.quit).ST = s.ST := rfl

@[simp] theorem State.quit_fb (s : State) :
    (s.quit).fb = s.fb := rfl

@[simp] theorem State.quit_WAIT (s : State) :
    (s.quit).WAIT = s.WAIT := rfl

@[simp] theorem State.quit_keys (s : State) :
    (s.quit).keys = s.keys := rfl

@[simp] theorem State.quit_dirty (s : State) :
    (s.quit).dirty = s.dirty := rfl

@[simp] theorem State.quit_diags (s : State) :
    (s.quit).diags = s.diags := rfl

@[simp] theorem State.quit_phase (s : State) :
    (s.quit).phase = Phase.ended := rfl

@[simp] theorem State.quit_agenda (s : State) :
    (s.quit).agenda = s.agenda := rfl

@[simp] theorem State.quit_rndAnswers (s : State) :
    (s.quit).rndAnswers = s.rndAnswers := rfl

@[simp] theorem State.quit_rndDraws (s : State) :
    (s.quit).rndDraws = s.rndDraws := rfl

@[simp] theorem State.quit_readByte (s : State) (adr : Nat) :
    (s.quit).readByte adr = s.readByte adr := rfl

@[simp] theorem State.quit_readV (s : State) (q : Reg) :
    (s.quit).readV q = s.readV q := rfl

@[simp] theorem State.quit_readStack (s : State) (e : Nibble) :
    (s.quit).readStack e = s.readStack e := rfl

@[simp] theorem State.quit_pixel (s : State) (qx qy : Nat) :
    (s.quit).pixel qx qy = s.pixel qx qy := rfl

@[simp] theorem State.quit_indexed (s : State) (off : Nat) :
    (s.quit).indexed off = s.indexed off := rfl

@[simp] theorem State.quit_nextRnd (s : State) :
    (s.quit).nextRnd = s.nextRnd := rfl

/-! ### `takeEvent` -/

@[simp] theorem State.takeEvent_config (s : State) :
    (s.takeEvent).config = s.config := rfl

@[simp] theorem State.takeEvent_mem (s : State) :
    (s.takeEvent).mem = s.mem := rfl

@[simp] theorem State.takeEvent_V (s : State) :
    (s.takeEvent).V = s.V := rfl

@[simp] theorem State.takeEvent_I (s : State) :
    (s.takeEvent).I = s.I := rfl

@[simp] theorem State.takeEvent_PC (s : State) :
    (s.takeEvent).PC = s.PC := rfl

@[simp] theorem State.takeEvent_stack (s : State) :
    (s.takeEvent).stack = s.stack := rfl

@[simp] theorem State.takeEvent_SP (s : State) :
    (s.takeEvent).SP = s.SP := rfl

@[simp] theorem State.takeEvent_DT (s : State) :
    (s.takeEvent).DT = s.DT := rfl

@[simp] theorem State.takeEvent_ST (s : State) :
    (s.takeEvent).ST = s.ST := rfl

@[simp] theorem State.takeEvent_fb (s : State) :
    (s.takeEvent).fb = s.fb := rfl

@[simp] theorem State.takeEvent_WAIT (s : State) :
    (s.takeEvent).WAIT = s.WAIT := rfl

@[simp] theorem State.takeEvent_keys (s : State) :
    (s.takeEvent).keys = s.keys := rfl

@[simp] theorem State.takeEvent_dirty (s : State) :
    (s.takeEvent).dirty = s.dirty := rfl

@[simp] theorem State.takeEvent_diags (s : State) :
    (s.takeEvent).diags = s.diags := rfl

@[simp] theorem State.takeEvent_phase (s : State) :
    (s.takeEvent).phase = s.phase := rfl

@[simp] theorem State.takeEvent_agenda (s : State) :
    (s.takeEvent).agenda = s.agenda.tail := rfl

@[simp] theorem State.takeEvent_rndAnswers (s : State) :
    (s.takeEvent).rndAnswers = s.rndAnswers := rfl

@[simp] theorem State.takeEvent_rndDraws (s : State) :
    (s.takeEvent).rndDraws = s.rndDraws := rfl

@[simp] theorem State.takeEvent_readByte (s : State) (adr : Nat) :
    (s.takeEvent).readByte adr = s.readByte adr := rfl

@[simp] theorem State.takeEvent_readV (s : State) (q : Reg) :
    (s.takeEvent).readV q = s.readV q := rfl

@[simp] theorem State.takeEvent_readStack (s : State) (e : Nibble) :
    (s.takeEvent).readStack e = s.readStack e := rfl

@[simp] theorem State.takeEvent_pixel (s : State) (qx qy : Nat) :
    (s.takeEvent).pixel qx qy = s.pixel qx qy := rfl

@[simp] theorem State.takeEvent_indexed (s : State) (off : Nat) :
    (s.takeEvent).indexed off = s.indexed off := rfl

@[simp] theorem State.takeEvent_nextRnd (s : State) :
    (s.takeEvent).nextRnd = s.nextRnd := rfl

end Sys2Proof.Machine
end

