-- ==== Sys2Proof/Laws/Memory.lean ====
section
/-! SUPPORT. Memory: read after write, and every write keeps the canonical form. -/

namespace Sys2Proof.Machine

theorem wrapAddr_lt (a : Nat) : wrapAddr a < Config.memSize := Nat.mod_lt _ (by decide)

theorem wrapAddr_wrapAddr (a : Nat) : wrapAddr (wrapAddr a) = wrapAddr a := Nat.mod_mod _ _

/-- Nothing is listed at `a`. -/
def Memory.Free (m : Memory) (a : Nat) : Prop := ∀ c ∈ m, c.1 ≠ a

theorem Memory.read_of_free (f : Config.Font) (m : Memory) (a : Nat) (h : m.Free a) : m.read f a = unlisted f a := by
  induction m with
  | nil => rfl
  | cons c m ih =>
    have hc : a ≠ c.1 := fun e => h c (by simp) e.symm
    simp only [Memory.read, hc, if_false]
    exact ih (fun d hd => h d (by simp [hd]))

theorem Memory.read_consByte (f : Config.Font) (a : Nat) (v : Byte) (m : Memory) (b : Nat) (hm : m.Free a) :
    (Memory.consByte f a v m).read f b = if b = a then v else m.read f b := by
  unfold Memory.consByte
  by_cases hv : v = unlisted f a <;> by_cases hb : b = a
  · subst hb; simp [hv, Memory.read_of_free f m b hm]
  · simp [hv, hb]
  · simp [hv, hb, Memory.read]
  · simp [hv, hb, Memory.read]

theorem Memory.read_insertByte (f : Config.Font) (m : Memory) (a : Nat) (v : Byte) (b : Nat) (hm : m.Free a) :
    (Memory.insertByte f m a v).read f b = if b = a then v else m.read f b := by
  induction m with
  | nil => exact Memory.read_consByte f a v [] b hm
  | cons c m ih =>
    have hc : c.1 ≠ a := hm c (by simp)
    have ih := ih (fun d hd => hm d (by simp [hd]))
    unfold Memory.insertByte
    split
    · exact Memory.read_consByte f a v _ b hm
    · by_cases hb : b = c.1
      · have : b ≠ a := by omega
        simp [Memory.read, hb, hc]
      · simp only [Memory.read, hb, if_false]; exact ih

theorem Memory.free_filter (m : Memory) (a : Nat) : Memory.Free (m.filter (fun c => c.1 != a)) a := by
  intro c hc; simpa using (List.mem_filter.mp hc).2

theorem Memory.read_filter (f : Config.Font) (m : Memory) (a b : Nat) (hb : b ≠ a) :
    Memory.read f (m.filter (fun c => c.1 != a)) b = m.read f b := by
  induction m with
  | nil => rfl
  | cons c m ih =>
    by_cases hc : c.1 = a
    · have : b ≠ c.1 := by omega
      simp [hc, Memory.read, ih, hb]
    · by_cases hbc : b = c.1 <;> simp [hc, Memory.read, ih, hbc]

/-- Read after write, whatever the memory. -/
theorem Memory.read_write (f : Config.Font) (m : Memory) (a : Nat) (v : Byte) (b : Nat) :
    (Memory.write f m a v).read f b = if b = a then v else m.read f b := by
  unfold Memory.write
  rw [Memory.read_insertByte f _ a v b (Memory.free_filter m a)]
  by_cases hb : b = a
  · simp [hb]
  · simp only [hb, if_false]; exact Memory.read_filter f m a b hb

theorem Memory.wfFrom_mono {low low' : Nat} (f : Config.Font) (m : Memory) (h : low' ≤ low) (hw : Memory.wfFrom f low m = true) :
    Memory.wfFrom f low' m = true := by
  cases m with
  | nil => rfl
  | cons c m =>
    obtain ⟨a, v⟩ := c
    simp only [Memory.wfFrom, Bool.and_eq_true, decide_eq_true_eq] at hw ⊢
    exact ⟨⟨⟨h.trans hw.1.1.1, hw.1.1.2⟩, hw.1.2⟩, hw.2⟩

theorem Memory.wfFrom_consByte {low a : Nat} (f : Config.Font) (v : Byte) (m : Memory) (hl : low ≤ a) (ha : a < Config.memSize)
    (hw : Memory.wfFrom f (a + 1) m = true) : Memory.wfFrom f low (Memory.consByte f a v m) = true := by
  unfold Memory.consByte
  split
  · exact Memory.wfFrom_mono f m (by omega) hw
  · rename_i hv
    simp only [Memory.wfFrom, Bool.and_eq_true, decide_eq_true_eq]
    exact ⟨⟨⟨hl, ha⟩, hv⟩, hw⟩

theorem Memory.wfFrom_filter {low : Nat} (f : Config.Font) (m : Memory) (a : Nat) (hw : Memory.wfFrom f low m = true) :
    Memory.wfFrom f low (m.filter (fun c => c.1 != a)) = true := by
  induction m generalizing low with
  | nil => rfl
  | cons c m ih =>
    obtain ⟨c, u⟩ := c
    simp only [Memory.wfFrom, Bool.and_eq_true, decide_eq_true_eq] at hw
    by_cases hc : c = a
    · simpa [hc] using Memory.wfFrom_mono f _ (by omega) (ih hw.2)
    · simp only [List.filter_cons, bne_iff_ne, ne_eq, hc, not_false_eq_true, if_true, Memory.wfFrom,
        Bool.and_eq_true, decide_eq_true_eq]
      exact ⟨hw.1, ih hw.2⟩

theorem Memory.wfFrom_insertByte {low a : Nat} (f : Config.Font) (m : Memory) (v : Byte) (hl : low ≤ a) (ha : a < Config.memSize)
    (hm : m.Free a) (hw : Memory.wfFrom f low m = true) : Memory.wfFrom f low (Memory.insertByte f m a v) = true := by
  induction m generalizing low with
  | nil => exact Memory.wfFrom_consByte f v [] hl ha rfl
  | cons c m ih =>
    obtain ⟨c, u⟩ := c
    have hca : c ≠ a := hm (c, u) (by simp)
    simp only [Memory.wfFrom, Bool.and_eq_true, decide_eq_true_eq] at hw
    unfold Memory.insertByte
    split
    · rename_i hlt
      refine Memory.wfFrom_consByte f v _ hl ha ?_
      simp only [Memory.wfFrom, Bool.and_eq_true, decide_eq_true_eq]
      exact ⟨⟨⟨hlt, hw.1.1.2⟩, hw.1.2⟩, hw.2⟩
    · simp only [Memory.wfFrom, Bool.and_eq_true, decide_eq_true_eq]
      exact ⟨hw.1, ih (by omega) (fun d hd => hm d (by simp [hd])) hw.2⟩

/-- A write keeps the canonical form. -/
theorem Memory.wf_write {a : Nat} (f : Config.Font) (m : Memory) (v : Byte) (ha : a < Config.memSize) (hw : Memory.wf f m = true) :
    Memory.wf f (Memory.write f m a v) = true :=
  Memory.wfFrom_insertByte f _ v (Nat.zero_le _) ha (Memory.free_filter m a) (Memory.wfFrom_filter f m a hw)

theorem Memory.wf_nil (f : Config.Font) : Memory.wf f [] = true := rfl

theorem reset_mem_wf : Memory.wf State.reset.config.fontTable State.reset.mem = true := rfl

/-- `MemWrite` keeps the canonical form. -/
theorem State.writeByte_wf (s : State) (a : Nat) (v : Byte) (hw : Memory.wf s.config.fontTable s.mem = true) :
    Memory.wf (s.writeByte a v).config.fontTable (s.writeByte a v).mem = true := Memory.wf_write _ s.mem v (wrapAddr_lt a) hw

theorem State.writeBytes_wf (s : State) (a : Nat) (bs : List Byte) (hw : Memory.wf s.config.fontTable s.mem = true) :
    Memory.wf (s.writeBytes a bs).config.fontTable (s.writeBytes a bs).mem = true := by
  induction bs generalizing s a with
  | nil => exact hw
  | cons b bs ih => exact ih _ _ (State.writeByte_wf s a b hw)

/-- Every step of a block store keeps the canonical form. -/
theorem State.storeRegs_wf (rs : List Reg) (s : State) (hw : Memory.wf s.config.fontTable s.mem = true) :
    Memory.wf (rs.foldl State.storeReg s).config.fontTable (rs.foldl State.storeReg s).mem = true := by
  induction rs generalizing s with
  | nil => exact hw
  | cons r rs ih => exact ih _ (State.writeByte_wf s _ _ hw)

/-- `MemRead` after `MemWrite`, each address reduced modulo 4096 (20_memory.md R61, R68). -/
theorem State.readByte_writeByte (s : State) (a : Nat) (v : Byte) (b : Nat) :
    (s.writeByte a v).readByte b = if wrapAddr b = wrapAddr a then v else s.readByte b :=
  Memory.read_write _ s.mem _ _ _

end Sys2Proof.Machine
end

