-- ==== Sys2Proof/Laws/Framebuffer.lean ====
section
/-! SUPPORT. The framebuffer: which pixels are on after a put, and every put keeps the canonical form. -/

namespace Sys2Proof.Machine

@[simp] theorem Framebuffer.mem_insertPixel (p q : Nat × Nat) (fb : Framebuffer) :
    q ∈ Framebuffer.insertPixel p fb ↔ q = p ∨ q ∈ fb := by
  induction fb with
  | nil => simp [Framebuffer.insertPixel]
  | cons r fb ih =>
    unfold Framebuffer.insertPixel
    split
    · simp
    · simp [ih, or_left_comm]

theorem Framebuffer.mem_put (fb : Framebuffer) (px py : Nat) (b : Bool) (q : Nat × Nat) :
    q ∈ Framebuffer.put fb px py b ↔ if q = (px, py) then b = true else q ∈ fb := by
  unfold Framebuffer.put
  cases b <;> by_cases hq : q = (px, py) <;> simp [hq]

theorem pixelBefore_trans {p q r : Nat × Nat} (h : pixelBefore p q = true) (k : pixelBefore q r = true) :
    pixelBefore p r = true := by
  simp only [pixelBefore, Bool.or_eq_true, Bool.and_eq_true, decide_eq_true_eq] at *
  omega

/-- Of two different pixels one comes first. -/
theorem pixelBefore_of_not {p q : Nat × Nat} (h : ¬ pixelBefore p q = true) (hne : p ≠ q) :
    pixelBefore q p = true := by
  have : ¬ (p.1 = q.1 ∧ p.2 = q.2) := fun e => hne (Prod.ext e.1 e.2)
  simp only [pixelBefore, Bool.or_eq_true, Bool.and_eq_true, decide_eq_true_eq] at *
  omega

/-- What the canonical form of a list that starts with `p` says. -/
theorem Framebuffer.wf_cons {w h : Nat} {p : Nat × Nat} {fb : Framebuffer} :
    Framebuffer.wf w h (p :: fb) = true ↔
      p.1 < w ∧ p.2 < h ∧ (∀ q ∈ fb, pixelBefore p q = true) ∧ Framebuffer.wf w h fb = true := by
  simp only [Framebuffer.wf, Bool.and_eq_true, decide_eq_true_eq, List.all_eq_true, and_assoc]

theorem Framebuffer.wf_filter {w h : Nat} (keep : Nat × Nat → Bool) (fb : Framebuffer)
    (hw : Framebuffer.wf w h fb = true) : Framebuffer.wf w h (fb.filter keep) = true := by
  induction fb with
  | nil => rfl
  | cons p fb ih =>
    obtain ⟨h1, h2, h3, h4⟩ := Framebuffer.wf_cons.mp hw
    rw [List.filter_cons]
    split
    · exact Framebuffer.wf_cons.mpr ⟨h1, h2, fun q hq => h3 q (List.mem_filter.mp hq).1, ih h4⟩
    · exact ih h4

theorem Framebuffer.wf_insertPixel {w h : Nat} (p : Nat × Nat) (fb : Framebuffer) (hp : p.1 < w ∧ p.2 < h)
    (hf : p ∉ fb) (hw : Framebuffer.wf w h fb = true) :
    Framebuffer.wf w h (Framebuffer.insertPixel p fb) = true := by
  induction fb with
  | nil => exact Framebuffer.wf_cons.mpr ⟨hp.1, hp.2, by simp, rfl⟩
  | cons q fb ih =>
    obtain ⟨h1, h2, h3, h4⟩ := Framebuffer.wf_cons.mp hw
    unfold Framebuffer.insertPixel
    split
    · rename_i hb
      refine Framebuffer.wf_cons.mpr ⟨hp.1, hp.2, fun r hr => ?_, hw⟩
      rcases List.mem_cons.mp hr with rfl | hr
      · exact hb
      · exact pixelBefore_trans hb (h3 r hr)
    · rename_i hb
      refine Framebuffer.wf_cons.mpr ⟨h1, h2, fun r hr => ?_, ih (fun e => hf (by simp [e])) h4⟩
      rcases (Framebuffer.mem_insertPixel _ _ _).mp hr with rfl | hr
      · exact pixelBefore_of_not hb (fun e => hf (by simp [e]))
      · exact h3 r hr

/-- A put inside the grid keeps the canonical form. -/
theorem Framebuffer.wf_put {w h : Nat} (fb : Framebuffer) (px py : Nat) (b : Bool) (hp : px < w ∧ py < h)
    (hw : Framebuffer.wf w h fb = true) : Framebuffer.wf w h (Framebuffer.put fb px py b) = true := by
  unfold Framebuffer.put
  split
  · exact Framebuffer.wf_insertPixel _ _ hp (by simp) (Framebuffer.wf_filter _ _ hw)
  · exact Framebuffer.wf_filter _ _ hw

theorem reset_fb_wf : Framebuffer.wf State.reset.config.fbWidth State.reset.config.fbHeight State.reset.fb = true := rfl

/-- Writing one pixel keeps the canonical form. -/
theorem State.writePixel_wf (s : State) (px py : Nat) (b : Bool)
    (hw : Framebuffer.wf s.config.fbWidth s.config.fbHeight s.fb = true) :
    Framebuffer.wf s.config.fbWidth s.config.fbHeight (s.writePixel px py b).fb = true := by
  rw [State.writePixel_fb]
  split
  · exact Framebuffer.wf_put _ _ _ _ ‹_› hw
  · exact hw

@[simp] theorem State.pixel_writePixel (s : State) (px py : Nat) (b : Bool) (qx qy : Nat) :
    (s.writePixel px py b).pixel qx qy = if qx = px ∧ qy = py ∧ InGrid s px py then b else s.pixel qx qy := by
  unfold State.pixel
  rw [State.writePixel_fb]
  by_cases h : InGrid s px py
  · by_cases hq : qx = px ∧ qy = py
    · obtain ⟨rfl, rfl⟩ := hq
      have : decide (InGrid (s.writePixel qx qy b) qx qy) = true := decide_eq_true h
      rw [this, if_pos h]
      have := Framebuffer.mem_put s.fb qx qy b (qx, qy)
      simp only [if_true, ← List.contains_iff_mem] at this
      cases b <;> simp_all
    · have hne : (qx, qy) ≠ (px, py) := fun e => hq (Prod.mk.inj e)
      have := Framebuffer.mem_put s.fb px py b (qx, qy)
      rw [if_neg hne, ← List.contains_iff_mem, ← List.contains_iff_mem, ← Bool.eq_iff_iff] at this
      have h2 : ¬ (qx = px ∧ qy = py ∧ InGrid s px py) := fun e => hq ⟨e.1, e.2.1⟩
      rw [if_pos h, this, if_neg h2]; rfl
  · have h2 : ¬ (qx = px ∧ qy = py ∧ InGrid s px py) := fun e => h e.2.2
    rw [if_neg h, if_neg h2]; rfl

@[simp] theorem State.pixel_clearPixels (s : State) (qx qy : Nat) : s.clearPixels.pixel qx qy = false := by
  simp [State.pixel]

/-- Off the grid every pixel reads off. -/
theorem State.pixel_outside (s : State) (px py : Nat) (h : ¬ InGrid s px py) : s.pixel px py = false := by
  simp [State.pixel, h]

end Sys2Proof.Machine
end

