-- ==== Sys2Proof/Laws/Ops.lean ====
section
/-! SUPPORT. For each shared operation, what it can do, said once: reads after register and stack writes, the
conditional skip, the random draw, the store of a list of bytes, the loops over registers and sprite bits. -/

namespace Sys2Proof.Machine

/-! ### Registers -/

@[simp] theorem State.readV_writeV (s : State) (r : Reg) (v : Byte) (q : Reg) :
    (s.writeV r v).readV q = if q = r then v else s.readV q := by
  obtain ⟨r, hr⟩ := r
  obtain ⟨q, hq⟩ := q
  simp only [State.readV, State.writeV, Vector.get_eq_getElem, Vector.getElem_set, Fin.mk.injEq]
  by_cases h : r = q <;> simp [h, eq_comm]

theorem State.readV_writeResultThenFlag (s : State) (x : Reg) (r : Byte) (f : Bool) (q : Reg) :
    (s.writeResultThenFlag x r f).readV q = if q = 15 then flagByte f else if q = x then r else s.readV q := by
  simp [State.writeResultThenFlag, regVF]

/-- Below bit 12 the index register is what was written, masked or not. -/
theorem State.writeI_low (s : State) (v : Word) : (s.writeI v).I.toNat % 4096 = v.toNat % 4096 := by
  rw [State.writeI_I, maskIndex]
  split
  · rw [BitVec.toNat_and]
    exact (congrArg (· % 4096) (Nat.and_two_pow_sub_one_eq_mod v.toNat 12)).trans (Nat.mod_mod _ _)
  · rfl

/-- A value of 12 bits is written as it is, masked or not. -/
theorem State.writeI_small (s : State) (v : Word) (h : v.toNat < 4096) : (s.writeI v).I = v := by
  have hl := State.writeI_low s v
  rw [State.writeI_I, maskIndex] at *
  split at hl
  · rw [if_pos ‹_›]
    apply BitVec.eq_of_toNat_eq
    have : (v &&& 0x0FFF#16).toNat < 4096 := by
      rw [BitVec.toNat_and]; exact Nat.and_lt_two_pow _ (by decide : (0x0FFF#16).toNat < 2 ^ 12)
    omega
  · rw [if_neg ‹_›]

/-! ### The call stack -/

@[simp] theorem State.readStack_push (s : State) (v : Word) (k : Nibble) :
    (s.push v).readStack k = if k = s.SP then v else s.readStack k := by
  simp only [State.readStack, State.push, Vector.get_eq_getElem, Vector.getElem_set]
  by_cases h : s.SP.toNat = k.toNat
  · have : k = s.SP := BitVec.eq_of_toNat_eq h.symm
    simp [this]
  · have : k ≠ s.SP := fun e => h (by rw [e])
    simp [this]
    intro e; exact absurd e h

@[simp] theorem State.pop_fst (s : State) : s.pop.1 = s.readStack (s.SP - 1#4) := rfl

/-! ### Keys -/

@[simp] theorem keys_get_set (keys : Vector Bool 16) (k : Key) (b : Bool) (j : Key) :
    (keys.set k.val b k.isLt).get j = if j = k then b else keys.get j := by
  obtain ⟨k, hk⟩ := k
  obtain ⟨j, hj⟩ := j
  simp only [Vector.get_eq_getElem, Vector.getElem_set, Fin.mk.injEq]
  by_cases h : k = j <;> simp [h, eq_comm]

theorem State.keys_get_setKey (s : State) (k : Key) (b : Bool) (j : Key) :
    (s.setKey k b).keys.get j = if j = k then b else s.keys.get j := keys_get_set s.keys k b j

/-! ### Skip, random source -/

theorem State.skipIf_eq (s : State) (b : Bool) :
    s.skipIf b = s.writePC (if b then nextPC s.PC else s.PC) := by
  cases b <;> rfl

@[simp] theorem State.skipIf_PC (s : State) (b : Bool) : (s.skipIf b).PC = if b then nextPC s.PC else s.PC := by
  cases b <;> rfl

@[simp] theorem State.skipIf_config (s : State) (b : Bool) : (s.skipIf b).config = s.config := by cases b <;> rfl

@[simp] theorem State.skipIf_mem (s : State) (b : Bool) : (s.skipIf b).mem = s.mem := by cases b <;> rfl

@[simp] theorem State.skipIf_V (s : State) (b : Bool) : (s.skipIf b).V = s.V := by cases b <;> rfl

@[simp] theorem State.skipIf_I (s : State) (b : Bool) : (s.skipIf b).I = s.I := by cases b <;> rfl

@[simp] theorem State.skipIf_stack (s : State) (b : Bool) : (s.skipIf b).stack = s.stack := by cases b <;> rfl

@[simp] theorem State.skipIf_SP (s : State) (b : Bool) : (s.skipIf b).SP = s.SP := by cases b <;> rfl

@[simp] theorem State.skipIf_DT (s : State) (b : Bool) : (s.skipIf b).DT = s.DT := by cases b <;> rfl

@[simp] theorem State.skipIf_ST (s : State) (b : Bool) : (s.skipIf b).ST = s.ST := by cases b <;> rfl

@[simp] theorem State.skipIf_fb (s : State) (b : Bool) : (s.skipIf b).fb = s.fb := by cases b <;> rfl

@[simp] theorem State.skipIf_WAIT (s : State) (b : Bool) : (s.skipIf b).WAIT = s.WAIT := by cases b <;> rfl

@[simp] theorem State.skipIf_keys (s : State) (b : Bool) : (s.skipIf b).keys = s.keys := by cases b <;> rfl

@[simp] theorem State.skipIf_dirty (s : State) (b : Bool) : (s.skipIf b).dirty = s.dirty := by cases b <;> rfl

@[simp] theorem State.skipIf_diags (s : State) (b : Bool) : (s.skipIf b).diags = s.diags := by cases b <;> rfl

@[simp] theorem State.skipIf_phase (s : State) (b : Bool) : (s.skipIf b).phase = s.phase := by cases b <;> rfl

@[simp] theorem State.skipIf_agenda (s : State) (b : Bool) : (s.skipIf b).agenda = s.agenda := by cases b <;> rfl

@[simp] theorem State.skipIf_rndAnswers (s : State) (b : Bool) : (s.skipIf b).rndAnswers = s.rndAnswers := by cases b <;> rfl

@[simp] theorem State.skipIf_rndDraws (s : State) (b : Bool) : (s.skipIf b).rndDraws = s.rndDraws := by cases b <;> rfl

@[simp] theorem State.skipIf_readByte (s : State) (b : Bool) (adr : Nat) :
    (s.skipIf b).readByte adr = s.readByte adr := by cases b <;> rfl

@[simp] theorem State.skipIf_readV (s : State) (b : Bool) (q : Reg) :
    (s.skipIf b).readV q = s.readV q := by cases b <;> rfl

@[simp] theorem State.skipIf_readStack (s : State) (b : Bool) (e : Nibble) :
    (s.skipIf b).readStack e = s.readStack e := by cases b <;> rfl

@[simp] theorem State.skipIf_pixel (s : State) (b : Bool) (qx qy : Nat) :
    (s.skipIf b).pixel qx qy = s.pixel qx qy := by cases b <;> rfl

@[simp] theorem State.dropRnd_config (s : State) : s.dropRnd.config = s.config := by
  unfold State.dropRnd; split <;> rfl

@[simp] theorem State.dropRnd_mem (s : State) : s.dropRnd.mem = s.mem := by
  unfold State.dropRnd; split <;> rfl

@[simp] theorem State.dropRnd_V (s : State) : s.dropRnd.V = s.V := by
  unfold State.dropRnd; split <;> rfl

@[simp] theorem State.dropRnd_I (s : State) : s.dropRnd.I = s.I := by
  unfold State.dropRnd; split <;> rfl

@[simp] theorem State.dropRnd_PC (s : State) : s.dropRnd.PC = s.PC := by
  unfold State.dropRnd; split <;> rfl

@[simp] theorem State.dropRnd_stack (s : State) : s.dropRnd.stack = s.stack := by
  unfold State.dropRnd; split <;> rfl

@[simp] theorem State.dropRnd_SP (s : State) : s.dropRnd.SP = s.SP := by
  unfold State.dropRnd; split <;> rfl

@[simp] theorem State.dropRnd_DT (s : State) : s.dropRnd.DT = s.DT := by
  unfold State.dropRnd; split <;> rfl

@[simp] theorem State.dropRnd_ST (s : State) : s.dropRnd.ST = s.ST := by
  unfold State.dropRnd; split <;> rfl

@[simp] theorem State.dropRnd_fb (s : State) : s.dropRnd.fb = s.fb := by
  unfold State.dropRnd; split <;> rfl

@[simp] theorem State.dropRnd_WAIT (s : State) : s.dropRnd.WAIT = s.WAIT := by
  unfold State.dropRnd; split <;> rfl

@[simp] theorem State.dropRnd_keys (s : State) : s.dropRnd.keys = s.keys := by
  unfold State.dropRnd; split <;> rfl

@[simp] theorem State.dropRnd_dirty (s : State) : s.dropRnd.dirty = s.dirty := by
  unfold State.dropRnd; split <;> rfl

@[simp] theorem State.dropRnd_diags (s : State) : s.dropRnd.diags = s.diags := by
  unfold State.dropRnd; split <;> rfl

@[simp] theorem State.dropRnd_phase (s : State) : s.dropRnd.phase = s.phase := by
  unfold State.dropRnd; split <;> rfl

@[simp] theorem State.dropRnd_agenda (s : State) : s.dropRnd.agenda = s.agenda := by
  unfold State.dropRnd; split <;> rfl

@[simp] theorem State.dropRnd_readByte (s : State) (adr : Nat) : s.dropRnd.readByte adr = s.readByte adr := by
  unfold State.dropRnd; split <;> rfl

@[simp] theorem State.dropRnd_readV (s : State) (q : Reg) : s.dropRnd.readV q = s.readV q := by
  unfold State.dropRnd; split <;> rfl

@[simp] theorem State.dropRnd_readStack (s : State) (e : Nibble) : s.dropRnd.readStack e = s.readStack e := by
  unfold State.dropRnd; split <;> rfl

@[simp] theorem State.dropRnd_pixel (s : State) (qx qy : Nat) : s.dropRnd.pixel qx qy = s.pixel qx qy := by
  unfold State.dropRnd; split <;> rfl

/-- A draw changes the random source's fields only. -/
theorem State.dropRnd_eq (s : State) :
    s.dropRnd = { s with rndAnswers := s.dropRnd.rndAnswers, rndDraws := s.dropRnd.rndDraws } := by
  unfold State.dropRnd; split <;> rfl

/-! ### Storing a list of bytes -/

/-- The store of a list of bytes changes memory only. -/
theorem State.writeBytes_eq (s : State) (a : Nat) (bs : List Byte) :
    s.writeBytes a bs = { s with mem := (s.writeBytes a bs).mem } := by
  induction bs generalizing s a with
  | nil => rfl
  | cons b bs ih => rw [State.writeBytes, ih]; rfl

/-- An address whose distance above `a` is not below the length is not touched. -/
theorem State.readByte_writeBytes_outside (s : State) (a : Nat) (bs : List Byte) (c : Nat)
    (h : ∀ k, k < bs.length → wrapAddr c ≠ wrapAddr (a + k)) : (s.writeBytes a bs).readByte c = s.readByte c := by
  induction bs generalizing s a with
  | nil => rfl
  | cons b bs ih =>
    rw [State.writeBytes, ih]
    · rw [State.readByte_writeByte, if_neg]; simpa using h 0 (by simp)
    · intro k hk
      have := h (k + 1) (by simpa using hk)
      rwa [show a + 1 + k = a + (k + 1) by omega]

/-- The stored bytes read back, for a list that does not wrap onto itself. -/
theorem State.readByte_writeBytes (s : State) (a : Nat) (bs : List Byte) (hl : bs.length ≤ Config.memSize) (k : Nat)
    (hk : k < bs.length) : (s.writeBytes a bs).readByte (a + k) = bs[k] := by
  induction bs generalizing s a k with
  | nil => simp at hk
  | cons b bs ih =>
    rw [State.writeBytes]
    simp only [List.length_cons] at hl hk
    cases k with
    | zero =>
      rw [State.readByte_writeBytes_outside, State.readByte_writeByte]
      · simp
      · intro j hj
        simp only [wrapAddr, Config.memSize] at hl ⊢; omega
    | succ k =>
      rw [show a + (k + 1) = a + 1 + k by omega, ih _ _ (by omega) _ (by omega)]
      simp

/-! ### The block store and the block load -/

theorem State.storeReg_eq (s : State) (r : Reg) : s.storeReg r = { s with mem := (s.storeReg r).mem } := rfl

/-- A block store changes memory only. -/
theorem State.storeRegs_eq (rs : List Reg) (s : State) :
    rs.foldl State.storeReg s = { s with mem := (rs.foldl State.storeReg s).mem } := by
  induction rs generalizing s with
  | nil => rfl
  | cons r rs ih => rw [List.foldl_cons, ih]; rfl

/-- A block load changes the general registers only. -/
theorem State.loadRegs_eq (rs : List Reg) (s : State) :
    rs.foldl State.loadReg s = { s with V := (rs.foldl State.loadReg s).V } := by
  induction rs generalizing s with
  | nil => rfl
  | cons r rs ih => rw [List.foldl_cons, ih]; rfl

/-- A block load reads memory as it was: the registers of the range get the bytes at `I`, the others stay. -/
theorem State.readV_loadRegs (rs : List Reg) (s : State) (q : Reg) :
    (rs.foldl State.loadReg s).readV q = if q ∈ rs then s.readByte (s.indexed q.val) else s.readV q := by
  induction rs generalizing s with
  | nil => simp
  | cons r rs ih =>
    rw [List.foldl_cons, ih]
    by_cases h : q ∈ rs
    · simp [h, State.loadReg]
    · by_cases hr : q = r <;> simp [h, hr, State.loadReg]

/-- The register range `V0..Vx` is inclusive of `x`. -/
@[simp] theorem mem_regRange (x r : Reg) : r ∈ regRange x ↔ r ≤ x := by
  simp only [regRange, List.mem_map, List.mem_range]
  constructor
  · rintro ⟨a, ha, rfl⟩
    have : a < 16 := by omega
    rw [Fin.le_def]
    simp only [Fin.ofNat, Nat.mod_eq_of_lt this]; omega
  · intro h
    exact ⟨r.val, by rw [Fin.le_def] at h; omega, by apply Fin.ext; simp [Fin.ofNat]⟩

/-! ### Sprites -/

/-- One sprite bit changes `V` and the framebuffer only. -/
theorem State.plotBit_eq (s : State) (px py : Nat) :
    s.plotBit px py = { s with V := (s.plotBit px py).V, fb := (s.plotBit px py).fb } := by
  unfold State.plotBit; split
  · split <;> rfl
  · rfl

/-- One sprite bit inverts its pixel and no other, and nothing outside the grid. -/
theorem State.pixel_plotBit (s : State) (px py qx qy : Nat) :
    (s.plotBit px py).pixel qx qy = (s.pixel qx qy ^^ decide (qx = px ∧ qy = py ∧ InGrid s px py)) := by
  unfold State.plotBit
  by_cases h : InGrid s px py
  · have hg : InGrid (if s.pixel px py = true then s.writeV regVF (flagByte true) else s) px py := by
      split <;> exact h
    rw [if_pos h, State.pixel_writePixel]
    by_cases hq : qx = px ∧ qy = py
    · obtain ⟨rfl, rfl⟩ := hq
      simp [h, hg]
    · have h1 : ¬ (qx = px ∧ qy = py ∧ InGrid s px py) := fun e => hq ⟨e.1, e.2.1⟩
      rw [if_neg (fun e => hq ⟨e.1, e.2.1⟩), decide_eq_false h1, Bool.xor_false]
      split <;> rfl
  · simp [h]

/-- One sprite bit sets `VF` when it turns a pixel off, and changes no other register. -/
theorem State.readV_plotBit (s : State) (px py : Nat) (q : Reg) :
    (s.plotBit px py).readV q =
      if InGrid s px py ∧ s.pixel px py = true ∧ q = 15 then flagByte true else s.readV q := by
  unfold State.plotBit
  by_cases h : InGrid s px py
  · rw [if_pos h, State.writePixel_readV]
    obtain ⟨hx, hy⟩ := h
    by_cases hp : s.pixel px py = true <;> simp [InGrid, hx, hy, hp, regVF]
  · rw [if_neg h, if_neg (fun e => h e.1)]

/-- One sprite bit keeps the canonical form of the framebuffer. -/
theorem State.plotBit_wf (s : State) (px py : Nat)
    (hw : Framebuffer.wf s.config.fbWidth s.config.fbHeight s.fb = true) :
    Framebuffer.wf s.config.fbWidth s.config.fbHeight (s.plotBit px py).fb = true := by
  unfold State.plotBit
  split
  · split <;> exact State.writePixel_wf _ _ _ _ hw
  · exact hw

theorem State.drawBit_eq (b : Byte) (x0 py : Nat) (s : State) (col : Nat) :
    s.drawBit b x0 py col = { s with V := (s.drawBit b x0 py col).V, fb := (s.drawBit b x0 py col).fb } := by
  unfold State.drawBit; split
  · exact State.plotBit_eq ..
  · rfl

/-- The bits of a row change `V` and the framebuffer only. -/
theorem State.drawBits_eq (b : Byte) (x0 py : Nat) (cols : List Nat) (s : State) :
    cols.foldl (State.drawBit b x0 py) s =
      { s with V := (cols.foldl (State.drawBit b x0 py) s).V, fb := (cols.foldl (State.drawBit b x0 py) s).fb } := by
  induction cols generalizing s with
  | nil => rfl
  | cons c cs ih => rw [List.foldl_cons, ih, State.drawBit_eq]

/-- The rows of a sprite change `V` and the framebuffer only. -/
theorem State.drawRowList_eq (x0 y0 : Nat) (rows : List Nat) (s : State) :
    rows.foldl (State.drawRow x0 y0) s =
      { s with V := (rows.foldl (State.drawRow x0 y0) s).V, fb := (rows.foldl (State.drawRow x0 y0) s).fb } := by
  induction rows generalizing s with
  | nil => rfl
  | cons r rs ih => rw [List.foldl_cons, ih]; unfold State.drawRow; rw [State.drawBits_eq]

theorem State.drawRows_eq (x0 y0 n : Nat) (s : State) :
    s.drawRows x0 y0 n = { s with V := (s.drawRows x0 y0 n).V, fb := (s.drawRows x0 y0 n).fb } :=
  State.drawRowList_eq ..

/-- The bits of a row keep the canonical form of the framebuffer. -/
theorem State.drawBits_wf (b : Byte) (x0 py : Nat) (cols : List Nat) (s : State)
    (hw : Framebuffer.wf s.config.fbWidth s.config.fbHeight s.fb = true) :
    Framebuffer.wf s.config.fbWidth s.config.fbHeight (cols.foldl (State.drawBit b x0 py) s).fb = true := by
  induction cols generalizing s with
  | nil => exact hw
  | cons c cs ih =>
    have hc : (s.drawBit b x0 py c).config = s.config := by rw [State.drawBit_eq]
    have := ih (s.drawBit b x0 py c)
    rw [hc] at this
    refine this ?_
    unfold State.drawBit
    split
    · exact State.plotBit_wf _ _ _ hw
    · exact hw

/-- Drawing a sprite keeps the canonical form of the framebuffer. -/
theorem State.drawRows_wf (x0 y0 n : Nat) (s : State)
    (hw : Framebuffer.wf s.config.fbWidth s.config.fbHeight s.fb = true) :
    Framebuffer.wf s.config.fbWidth s.config.fbHeight (s.drawRows x0 y0 n).fb = true := by
  unfold State.drawRows
  induction List.range n generalizing s with
  | nil => exact hw
  | cons r rs ih =>
    have hc : (s.drawRow x0 y0 r).config = s.config := by unfold State.drawRow; rw [State.drawBits_eq]
    have := ih (s.drawRow x0 y0 r)
    rw [hc] at this
    exact this (State.drawBits_wf _ _ _ _ _ hw)

end Sys2Proof.Machine
end

