-- ==== Sys2Proof/Laws/Frame.lean ====
section
/-! SUPPORT. Frames: how they compose, and the frame of each update. -/

namespace Sys2Proof.Machine

theorem FrameBut.refl (c : List Piece) (s : State) : FrameBut c s s := by
  intro p _; cases p <;> simp [Piece.Same]

theorem Piece.Same.trans {s t u : State} {p : Piece} (h : Piece.Same s t p) (k : Piece.Same t u p) : Piece.Same s u p := by
  cases p <;> simp only [Piece.Same] at h k ⊢ <;> simp [h, k]

theorem FrameBut.mono {c d : List Piece} {s t : State} (h : FrameBut c s t) (hcd : ∀ p ∈ c, p ∈ d) :
    FrameBut d s t := fun p hp => h p (fun hc => hp (hcd p hc))

theorem FrameBut.trans {c : List Piece} {s t u : State} (h : FrameBut c s t) (k : FrameBut c t u) : FrameBut c s u :=
  fun p hp => (h p hp).trans (k p hp)

theorem State.frame_writeV (s : State) (r : Reg) (v : Byte) : FrameBut [.V] s (s.writeV r v) := by
  intro p hp; cases p <;> simp_all [Piece.Same]

theorem State.frame_writeI (s : State) (v : Word) : FrameBut [.I] s (s.writeI v) := by
  intro p hp; cases p <;> simp_all [Piece.Same]

theorem State.frame_writePC (s : State) (v : Word) : FrameBut [.PC] s (s.writePC v) := by
  intro p hp; cases p <;> simp_all [Piece.Same]

theorem State.frame_writeDT (s : State) (v : Byte) : FrameBut [.DT] s (s.writeDT v) := by
  intro p hp; cases p <;> simp_all [Piece.Same]

theorem State.frame_writeST (s : State) (v : Byte) : FrameBut [.ST] s (s.writeST v) := by
  intro p hp; cases p <;> simp_all [Piece.Same]

theorem State.frame_writeWAIT (s : State) (w : Option Reg) : FrameBut [.WAIT] s (s.writeWAIT w) := by
  intro p hp; cases p <;> simp_all [Piece.Same]

theorem State.frame_writeDirty (s : State) (d : Bool) : FrameBut [.dirty] s (s.writeDirty d) := by
  intro p hp; cases p <;> simp_all [Piece.Same]

theorem State.frame_push (s : State) (v : Word) : FrameBut [.stack, .SP] s (s.push v) := by
  intro p hp; cases p <;> simp_all [Piece.Same]

theorem State.frame_pop (s : State) : FrameBut [.SP] s s.pop.2 := by
  intro p hp; cases p <;> simp_all [Piece.Same]

theorem State.frame_skipIf (s : State) (b : Bool) : FrameBut [.PC] s (s.skipIf b) := by
  rw [State.skipIf_eq]; exact State.frame_writePC s _

theorem State.frame_clearPixels (s : State) : FrameBut [.fb] s s.clearPixels := by
  intro p hp; cases p <;> simp_all [Piece.Same]

theorem State.frame_raiseUnrecognized (s : State) (w a : Word) : FrameBut [.diags] s (s.raiseUnrecognized w a) := by
  intro p hp; cases p <;> simp_all [Piece.Same]

theorem State.frame_dropRnd (s : State) : FrameBut [.rnd] s s.dropRnd := by
  rw [State.dropRnd_eq]; intro p hp
  cases p <;> simp_all [Piece.Same, State.readByte, State.readV, State.readStack, State.pixel]

/-- A change of memory only. -/
theorem frame_of_mem (s : State) (m : Memory) : FrameBut [.mem] s { s with mem := m } := by
  intro p hp; cases p <;> simp_all [Piece.Same, State.readV, State.readStack, State.pixel]

/-- A change of the general registers only. -/
theorem frame_of_V (s : State) (v : Vector Byte 16) : FrameBut [.V] s { s with V := v } := by
  intro p hp; cases p <;> simp_all [Piece.Same, State.readByte, State.readStack, State.pixel]

/-- A change of the general registers and the framebuffer only. -/
theorem frame_of_V_fb (s : State) (v : Vector Byte 16) (f : Framebuffer) :
    FrameBut [.V, .fb] s { s with V := v, fb := f } := by
  intro p hp; cases p <;> simp_all [Piece.Same, State.readByte, State.readStack]

theorem State.frame_writeBytes (s : State) (a : Nat) (bs : List Byte) : FrameBut [.mem] s (s.writeBytes a bs) := by
  rw [State.writeBytes_eq]; exact frame_of_mem s _

theorem State.frame_storeRegs (rs : List Reg) (s : State) : FrameBut [.mem] s (rs.foldl State.storeReg s) := by
  rw [State.storeRegs_eq]; exact frame_of_mem s _

theorem State.frame_loadRegs (rs : List Reg) (s : State) : FrameBut [.V] s (rs.foldl State.loadReg s) := by
  rw [State.loadRegs_eq]; exact frame_of_V s _

theorem State.frame_drawRows (x0 y0 n : Nat) (s : State) :
    FrameBut [.V, .fb] s (s.drawRows x0 y0 n) := by
  rw [State.drawRows_eq]; exact frame_of_V_fb s _ _

end Sys2Proof.Machine
end

