-- ==== Sys2Proof/Laws/PerInstr.lean ====
section
/-! SUPPORT. The family `TableRow`, one lemma an instruction: the encoder's word carries the table's match under the
table's mask (30_encoding.md R101). -/

namespace Sys2Proof.Laws.TableRow

/-- The instruction's word is a word of its own row. -/
def Statement (i : Instr) : Prop := encode i &&& tableMask i = tableMatch i

theorem of_F000 {w m : Word} (h : packXNN (fieldOp w) 0 0 = m) : w &&& 0xF000 = m := (and_F000 w).trans h

theorem of_F0FF {w m : Word} (h : packXNN (fieldOp w) 0 (fieldNN w) = m) : w &&& 0xF0FF = m := (and_F0FF w).trans h

theorem of_F00F {w m : Word} (h : packXYN (fieldOp w) 0 0 (fieldN w) = m) : w &&& 0xF00F = m := (and_F00F w).trans h

theorem cls : Statement .cls := of_F0FF (by simp [encode]; rfl)

theorem ret : Statement .ret := of_F0FF (by simp [encode]; rfl)

theorem jp (nnn : Addr) : Statement (.jp nnn) := of_F000 (by simp [encode]; rfl)

theorem call (nnn : Addr) : Statement (.call nnn) := of_F000 (by simp [encode]; rfl)

theorem seImm (x : Reg) (nn : Byte) : Statement (.seImm x nn) := of_F000 (by simp [encode]; rfl)

theorem sneImm (x : Reg) (nn : Byte) : Statement (.sneImm x nn) := of_F000 (by simp [encode]; rfl)

theorem seReg (x : Reg) (y : Reg) : Statement (.seReg x y) := of_F000 (by simp [encode]; rfl)

theorem ldImm (x : Reg) (nn : Byte) : Statement (.ldImm x nn) := of_F000 (by simp [encode]; rfl)

theorem addImm (x : Reg) (nn : Byte) : Statement (.addImm x nn) := of_F000 (by simp [encode]; rfl)

theorem ldReg (x : Reg) (y : Reg) : Statement (.ldReg x y) := of_F00F (by simp [encode]; rfl)

theorem orReg (x : Reg) (y : Reg) : Statement (.orReg x y) := of_F00F (by simp [encode]; rfl)

theorem andReg (x : Reg) (y : Reg) : Statement (.andReg x y) := of_F00F (by simp [encode]; rfl)

theorem xorReg (x : Reg) (y : Reg) : Statement (.xorReg x y) := of_F00F (by simp [encode]; rfl)

theorem addReg (x : Reg) (y : Reg) : Statement (.addReg x y) := of_F00F (by simp [encode]; rfl)

theorem subReg (x : Reg) (y : Reg) : Statement (.subReg x y) := of_F00F (by simp [encode]; rfl)

theorem shr (x : Reg) (y : Reg) : Statement (.shr x y) := of_F00F (by simp [encode]; rfl)

theorem subnReg (x : Reg) (y : Reg) : Statement (.subnReg x y) := of_F00F (by simp [encode]; rfl)

theorem shl (x : Reg) (y : Reg) : Statement (.shl x y) := of_F00F (by simp [encode]; rfl)

theorem sneReg (x : Reg) (y : Reg) : Statement (.sneReg x y) := of_F000 (by simp [encode]; rfl)

theorem ldI (nnn : Addr) : Statement (.ldI nnn) := of_F000 (by simp [encode]; rfl)

theorem jpV0 (nnn : Addr) : Statement (.jpV0 nnn) := of_F000 (by simp [encode]; rfl)

theorem rnd (x : Reg) (nn : Byte) : Statement (.rnd x nn) := of_F000 (by simp [encode]; rfl)

theorem drw (x : Reg) (y : Reg) (n : Nibble) : Statement (.drw x y n) := of_F000 (by simp [encode]; rfl)

theorem skp (x : Reg) : Statement (.skp x) := of_F0FF (by simp [encode]; rfl)

theorem sknp (x : Reg) : Statement (.sknp x) := of_F0FF (by simp [encode]; rfl)

theorem ldVxDT (x : Reg) : Statement (.ldVxDT x) := of_F0FF (by simp [encode]; rfl)

theorem ldVxK (x : Reg) : Statement (.ldVxK x) := of_F0FF (by simp [encode]; rfl)

theorem ldDTVx (x : Reg) : Statement (.ldDTVx x) := of_F0FF (by simp [encode]; rfl)

theorem ldSTVx (x : Reg) : Statement (.ldSTVx x) := of_F0FF (by simp [encode]; rfl)

theorem addI (x : Reg) : Statement (.addI x) := of_F0FF (by simp [encode]; rfl)

theorem ldF (x : Reg) : Statement (.ldF x) := of_F0FF (by simp [encode]; rfl)

theorem ldB (x : Reg) : Statement (.ldB x) := of_F0FF (by simp [encode]; rfl)

theorem stRegs (x : Reg) : Statement (.stRegs x) := of_F0FF (by simp [encode]; rfl)

theorem ldRegs (x : Reg) : Statement (.ldRegs x) := of_F0FF (by simp [encode]; rfl)

end Sys2Proof.Laws.TableRow
end

