-- ==== Sys2Proof/Laws/Step.lean ====
section
/-! SUPPORT. What a step can do, said once: the inversion lemmas of `exec`, `performStep`, `applyEvent` and `step`. -/

namespace Sys2Proof.Machine

/-- Every instruction answers a next state. -/
theorem exec_answers (i : Instr) (s : State) : ∃ t, exec i s = .next t := by cases i <;> exact ⟨_, rfl⟩

/-- Executing a fetched word runs its instruction or logs the anomaly. -/
theorem execWord_cases {w a : Word} {s t : State} (h : execWord w a s = .next t) :
    (∃ i, decodeWord w = some i ∧ exec i s = .next t) ∨ (decodeWord w = none ∧ t = s.raiseUnrecognized w a) := by
  unfold execWord at h
  split at h
  · rename_i i hi; exact .inl ⟨i, hi, h⟩
  · rename_i hn
    injection h with h
    exact .inr ⟨hn, h.symm⟩

theorem execWord_answers (w a : Word) (s : State) : ∃ t, execWord w a s = .next t := by
  unfold execWord
  split
  · exact exec_answers _ _
  · exact ⟨_, rfl⟩

/-- A `Step` waits, runs one instruction in the advanced state, or logs the anomaly there. -/
theorem performStep_cases {s t : State} (h : performStep s = .next t) :
    (s.WAIT ≠ none ∧ t = s.writeDirty false) ∨
    (s.WAIT = none ∧ ∃ i, decodeWord s.fetchWord = some i ∧ exec i s.advance = .next t) ∨
    (s.WAIT = none ∧ decodeWord s.fetchWord = none ∧ t = s.advance.raiseUnrecognized s.fetchWord s.PC) := by
  unfold performStep at h
  split at h
  · rename_i r hr
    injection h with h
    exact .inl ⟨by simp [hr], h.symm⟩
  · rename_i hn
    rcases execWord_cases h with ⟨i, hi, hx⟩ | ⟨hd, rfl⟩
    · exact .inr (.inl ⟨hn, i, hi, hx⟩)
    · exact .inr (.inr ⟨hn, hd, rfl⟩)

theorem performStep_answers (s : State) : ∃ t, performStep s = .next t := by
  unfold performStep
  split
  · exact ⟨_, rfl⟩
  · exact execWord_answers _ _ _

/-- What an event that answers a next state has done. -/
theorem applyEvent_cases {e : HostEvent} {s t : State} (h : applyEvent e s = .next t) :
    (e = .step ∧ performStep s = .next t) ∨ (e = .tick ∧ t = s.tick) ∨
    (∃ k, e = .keyDown k ∧ t = s.keyDown k) ∨ (∃ k, e = .keyUp k ∧ t = s.keyUp k) ∨
    (e = .reset ∧ t = s.resetEvent) ∨ (∃ im, e = .load im ∧ s.phase = .reset ∧ t = s.loadImage im) ∨
    (e = .quit ∧ t = s.quit) := by
  cases e with
  | step => exact .inl ⟨rfl, h⟩
  | load im =>
    simp only [applyEvent] at h
    split at h
    · rename_i hp
      injection h with h
      simp [hp, h]
    · cases h
  | _ => injection h with h; simp [h]

/-- A step does nothing once the run is ended, and otherwise applies the next event. -/
theorem step_cases {s t : State} (h : step s = .next t) :
    (s.phase = .ended ∧ t = s) ∨ (s.phase ≠ .ended ∧ applyEvent s.nextEvent s.takeEvent = .next t) := by
  unfold step transition at h
  split at h
  · rename_i hp
    injection h with h
    exact .inl ⟨hp, h.symm⟩
  · rename_i hp; exact .inr ⟨hp, h⟩

theorem step_of_running {s : State} (h : s.phase ≠ .ended) : step s = applyEvent s.nextEvent s.takeEvent := by
  unfold step transition; exact if_neg h

/-- A run goes on from the state a step answers. -/
theorem core_run_succ {k : Nat} {s t : State} (h : step s = .next t) :
    Sys2Proof.core.run (k + 1) s = Sys2Proof.core.run k t := by
  have h : Sys2Proof.core.step s = .next t := h
  simp only [Host.Core.run]
  rw [h]

/-- In a ready state a step executes the word at `PC`. -/
theorem step_of_ready {s : State} (h : Ready s) :
    step s = execWord s.fetchWord s.PC s.takeEvent.advance := by
  obtain ⟨h1, h2, h3⟩ := h
  rw [step_of_running h1, h2]
  show performStep s.takeEvent = _
  unfold performStep
  have : s.takeEvent.WAIT = none := h3
  rw [this]; rfl

/-- A tick changes the two timers only. -/
theorem State.frame_tick (s : State) : FrameBut [.DT, .ST] s s.tick := by
  unfold State.tick
  split
  · exact FrameBut.refl _ _
  · intro p hp; cases p <;> simp_all [Piece.Same, State.readByte, State.readV, State.readStack, State.pixel]

/-- A key press changes the keys, and, where one is awaited, a register and the wait. -/
theorem State.frame_keyDown (s : State) (k : Key) : FrameBut [.keys, .V, .WAIT] s (s.keyDown k) := by
  unfold State.keyDown
  split
  · exact FrameBut.refl _ _
  · unfold State.completeWait
    intro p hp
    split <;> cases p <;> simp_all [Piece.Same]

theorem State.frame_keyUp (s : State) (k : Key) : FrameBut [.keys] s (s.keyUp k) := by
  unfold State.keyUp; intro p hp; cases p <;> simp_all [Piece.Same]

end Sys2Proof.Machine
end

