-- ==== Sys2Proof/Tests/Slice0.lean ====
section
/-! SUPPORT. Small tests, each with its expected result from the spec: words written out from 30_encoding.md, one step
on a small state from 95_test_vectors.md, and for every statement with hypotheses a state and operands that meet them. -/

namespace Sys2Proof.Tests

open Sys2Proof.Machine

/-! ### Well-formedness (20_memory.md R64, 30_encoding.md R95, R99) -/

theorem test_image_of_3584_bytes_fits : imageFits (List.replicate 3584 0x00) = true := by
  rw [imageFits, List.length_replicate]; decide

theorem test_image_of_3585_bytes_refused : imageFits (List.replicate 3585 0x00) = false := by
  rw [imageFits, List.length_replicate]; decide

theorem test_canonical_words : canonicalWord 0x00E0 = true ∧ canonicalWord 0x00EE = true ∧
    canonicalWord 0x5120 = true ∧ canonicalWord 0x9120 = true ∧ canonicalWord 0x8126 = true := by decide

theorem test_ignored_bits_set_refused : canonicalWord 0x01E0 = false ∧ canonicalWord 0x0FEE = false ∧
    canonicalWord 0x5121 = false ∧ canonicalWord 0x912F = false := by decide

/-! ### Decoding: a word of every instruction, its bits written out (30_encoding.md R91, R92, R101) -/

theorem test_decode_cls : decodeWord 0b0000_0000_1110_0000#16 = some .cls := by decide
theorem test_decode_ret : decodeWord 0b0000_0000_1110_1110#16 = some .ret := by decide
theorem test_decode_jp : decodeWord 0b0001_0010_0011_0100#16 = some (.jp 0x234) := by decide
theorem test_decode_call : decodeWord 0b0010_1111_0001_1110#16 = some (.call 0xF1E) := by decide
theorem test_decode_seImm : decodeWord 0b0011_1010_0010_1100#16 = some (.seImm 10 0x2C) := by decide
theorem test_decode_sneImm : decodeWord 0b0100_1010_0010_1100#16 = some (.sneImm 10 0x2C) := by decide
theorem test_decode_seReg : decodeWord 0b0101_0001_0010_0000#16 = some (.seReg 1 2) := by decide
theorem test_decode_ldImm : decodeWord 0b0110_1111_1000_0000#16 = some (.ldImm 15 0x80) := by decide
theorem test_decode_addImm : decodeWord 0b0111_0011_0000_0001#16 = some (.addImm 3 0x01) := by decide
theorem test_decode_ldReg : decodeWord 0b1000_0001_0010_0000#16 = some (.ldReg 1 2) := by decide
theorem test_decode_orReg : decodeWord 0b1000_0001_0010_0001#16 = some (.orReg 1 2) := by decide
theorem test_decode_andReg : decodeWord 0b1000_0001_0010_0010#16 = some (.andReg 1 2) := by decide
theorem test_decode_xorReg : decodeWord 0b1000_0001_0010_0011#16 = some (.xorReg 1 2) := by decide
theorem test_decode_addReg : decodeWord 0b1000_0001_0010_0100#16 = some (.addReg 1 2) := by decide
theorem test_decode_subReg : decodeWord 0b1000_0001_0010_0101#16 = some (.subReg 1 2) := by decide
theorem test_decode_shr : decodeWord 0b1000_0001_0010_0110#16 = some (.shr 1 2) := by decide
theorem test_decode_subnReg : decodeWord 0b1000_0001_0010_0111#16 = some (.subnReg 1 2) := by decide
theorem test_decode_shl : decodeWord 0b1000_0001_0010_1110#16 = some (.shl 1 2) := by decide
theorem test_decode_sneReg : decodeWord 0b1001_0001_0010_0000#16 = some (.sneReg 1 2) := by decide
theorem test_decode_ldI : decodeWord 0b1010_0011_0000_0001#16 = some (.ldI 0x301) := by decide
theorem test_decode_jpV0 : decodeWord 0b1011_0011_0000_0001#16 = some (.jpV0 0x301) := by decide
theorem test_decode_rnd : decodeWord 0b1100_0011_0000_1111#16 = some (.rnd 3 0x0F) := by decide
theorem test_decode_drw : decodeWord 0b1101_0000_0001_0101#16 = some (.drw 0 1 5) := by decide
theorem test_decode_skp : decodeWord 0b1110_0011_1001_1110#16 = some (.skp 3) := by decide
theorem test_decode_sknp : decodeWord 0b1110_0011_1010_0001#16 = some (.sknp 3) := by decide
theorem test_decode_ldVxDT : decodeWord 0b1111_0001_0000_0111#16 = some (.ldVxDT 1) := by decide
theorem test_decode_ldVxK : decodeWord 0b1111_0010_0000_1010#16 = some (.ldVxK 2) := by decide
theorem test_decode_ldDTVx : decodeWord 0b1111_0100_0001_0101#16 = some (.ldDTVx 4) := by decide
theorem test_decode_ldSTVx : decodeWord 0b1111_0101_0001_1000#16 = some (.ldSTVx 5) := by decide
theorem test_decode_addI : decodeWord 0b1111_0010_0001_1110#16 = some (.addI 2) := by decide
theorem test_decode_ldF : decodeWord 0b1111_0100_0010_1001#16 = some (.ldF 4) := by decide
theorem test_decode_ldB : decodeWord 0b1111_0000_0011_0011#16 = some (.ldB 0) := by decide
theorem test_decode_stRegs : decodeWord 0b1111_1111_0101_0101#16 = some (.stRegs 15) := by decide
theorem test_decode_ldRegs : decodeWord 0b1111_0010_0110_0101#16 = some (.ldRegs 2) := by decide

/-- 95_test_vectors.md section 2.7: recognized despite looking odd. -/
theorem test_decode_ignored_bits : decodeWord 0x01E0 = some .cls ∧ decodeWord 0x0FEE = some .ret ∧
    decodeWord 0x5121 = some (.seReg 1 2) ∧ decodeWord 0x912F = some (.sneReg 1 2) := by decide

/-- 95_test_vectors.md section 2.7: the listed unrecognized words. -/
theorem test_decode_unrecognized : ([0x0000, 0x00E1, 0x00FD, 0x00FF, 0x0123, 0x8128, 0x812F, 0xE09F, 0xE000,
    0xF000, 0xF030, 0xF075, 0xF085, 0xF1FF] : List Word).all (fun w => decodeWord w == none) = true := by decide

/-- A byte list too short for a word is rejected by name; the bytes are high byte first. -/
theorem test_decode_bytes : decodeBytes [0x6A] = .error .truncated ∧
    decodeBytes [0xFF, 0xFE, 0x00] = .error (.unrecognized 0xFFFE) ∧
    decodeBytes [0x6A, 0x2C, 0x99] = .ok (.ldImm 10 0x2C, [0x99]) := by
  refine ⟨by decide, by decide, by decide⟩

theorem test_decode_table_word : decodeTableWord 16 0xF265 = some (.ldRegs 2) ∧
    decodeTableWord 16 0x0000 = none := by decide

/-! ### One step -/

/-- The reset state with some registers overridden. -/
def start (vs : List (Reg × Byte)) : State := vs.foldl (fun s rv => s.writeV rv.1 rv.2) State.reset

/-- The reset state with bytes of memory and registers overridden. -/
def startMem (ms : List (Nat × Byte)) (vs : List (Reg × Byte)) : State :=
  ms.foldl (fun s mv => s.writeByte mv.1 mv.2) (start vs)

/-- What holds after one step on the word `w`. -/
def after (s : State) (w : Nat) (p : State → Bool) : Bool :=
  match step (s.withFetchWord 16 w) with
  | .next t => p t
  | _ => false

/-- What holds after one event. -/
def afterEvent (e : HostEvent) (s : State) (p : State → Bool) : Bool :=
  match step { s with agenda := [e] } with
  | .next t => p t
  | _ => false

/-- S1a: the two bytes of a fetch wrap on their own. -/
theorem test_fetch_wraps : after { State.reset with PC := 0x0FFF } 0x6A2C
    (fun t => t.readV 10 == 0x2C && t.PC == 0x1001) = true := by decide
/-- T2: `PC + 2` wraps modulo 2^16. -/
theorem test_pc_wraps : after { State.reset with PC := 0xFFFE } 0x7001
    (fun t => t.readV 0 == 0x01 && t.PC == 0x0000) = true := by decide
/-- T75, T77. -/
theorem test_cls : after (State.reset.writePixel 9 9 true) 0x01E0
    (fun t => !t.pixel 9 9 && t.dirty && t.PC == 0x0202) = true := by decide
/-- T4, T5. -/
theorem test_ret : after { State.reset with SP := 1, stack := State.reset.stack.set 0 0x0206 } 0x00EE
    (fun t => t.SP == 0 && t.PC == 0x0206 && t.readStack 0 == 0x0206) = true := by decide
theorem test_ret_wraps : after State.reset 0x00EE (fun t => t.SP == 15 && t.PC == 0x0000) = true := by decide
/-- T7. -/
theorem test_jp : after State.reset 0x1FFF (fun t => t.PC == 0x0FFF) = true := by decide
/-- T9, T10. -/
theorem test_call : after { State.reset with PC := 0x0FFE } 0x2300
    (fun t => t.readStack 0 == 0x1000 && t.SP == 1 && t.PC == 0x0300) = true := by decide
theorem test_call_wraps : after { State.reset with SP := 15 } 0x2300
    (fun t => t.readStack 15 == 0x0202 && t.SP == 0 && t.PC == 0x0300) = true := by decide
/-- T11, T12. -/
theorem test_seImm : after (start [(10, 0x2C)]) 0x3A2C (fun t => t.PC == 0x0204) = true ∧
    after (start [(10, 0x2D)]) 0x3A2C (fun t => t.PC == 0x0202) = true := by decide
/-- T13, T14. -/
theorem test_sneImm : after (start [(10, 0x2D)]) 0x4A2C (fun t => t.PC == 0x0204) = true ∧
    after (start [(10, 0x2C)]) 0x4A2C (fun t => t.PC == 0x0202) = true := by decide
/-- T16, T18. -/
theorem test_seReg : after (start [(1, 0x33), (2, 0x33)]) 0x5121 (fun t => t.PC == 0x0204) = true ∧
    after (start [(1, 0x33), (2, 0x34)]) 0x5120 (fun t => t.PC == 0x0202) = true := by decide
/-- T20, T22. -/
theorem test_sneReg : after (start [(1, 0x01), (2, 0x02)]) 0x912F (fun t => t.PC == 0x0204) = true ∧
    after (start [(1, 0x02), (2, 0x02)]) 0x9120 (fun t => t.PC == 0x0202) = true := by decide
/-- T40. -/
theorem test_ldImm : after State.reset 0x6F80 (fun t => t.readV 15 == 0x80 && t.PC == 0x0202) = true := by decide
/-- T42, T43. -/
theorem test_addImm : after (start [(0, 0xFF), (15, 0x55)]) 0x7001
    (fun t => t.readV 0 == 0x00 && t.readV 15 == 0x55) = true := by decide
theorem test_addImm_vf : after (start [(15, 0xFF)]) 0x7F01 (fun t => t.readV 15 == 0x00) = true := by decide
/-- Section 2.3, row `0F`,`F0`, and destination `VF`, row `FF`,`01`. -/
theorem test_ldReg : after (start [(0, 0x0F), (1, 0xF0), (15, 0x55)]) 0x8010
    (fun t => t.readV 0 == 0xF0 && t.readV 15 == 0x55) = true := by decide
theorem test_orReg : after (start [(0, 0x05), (1, 0x03), (15, 0x55)]) 0x8011
    (fun t => t.readV 0 == 0x07 && t.readV 15 == 0x55) = true := by decide
theorem test_andReg : after (start [(0, 0x05), (1, 0x03), (15, 0x55)]) 0x8012
    (fun t => t.readV 0 == 0x01 && t.readV 15 == 0x55) = true := by decide
theorem test_xorReg : after (start [(0, 0x05), (1, 0x03), (15, 0x55)]) 0x8013
    (fun t => t.readV 0 == 0x06 && t.readV 15 == 0x55) = true := by decide
/-- S2a; source is `VF`, row `FF`,`01`. -/
theorem test_addReg : after (start [(0, 0xFF), (1, 0x01)]) 0x8014
    (fun t => t.readV 0 == 0x00 && t.readV 15 == 0x01) = true := by decide
theorem test_addReg_vf_source : after (start [(0, 0xFF), (15, 0x01)]) 0x80F4
    (fun t => t.readV 0 == 0x00 && t.readV 15 == 0x01) = true := by decide
/-- S3b; destination `VF`, row `81`,`00`. -/
theorem test_subReg : after (start [(0, 0x03), (1, 0x05), (15, 0x01)]) 0x8015
    (fun t => t.readV 0 == 0xFE && t.readV 15 == 0x00) = true := by decide
theorem test_subReg_vf : after (start [(15, 0x81)]) 0x8F15 (fun t => t.readV 15 == 0x01) = true := by decide
/-- Section 2.3, row `0F`,`F0`; both are `VF`, row `7F`. -/
theorem test_shr : after (start [(0, 0x0F), (1, 0xF0), (15, 0x55)]) 0x8016
    (fun t => t.readV 0 == 0x07 && t.readV 1 == 0xF0 && t.readV 15 == 0x01) = true := by decide
theorem test_shr_vf : after (start [(15, 0x7F)]) 0x8FF6 (fun t => t.readV 15 == 0x01) = true := by decide
/-- Section 2.3, rows `05`,`03` and `80`,`80`. -/
theorem test_subnReg : after (start [(0, 0x05), (1, 0x03)]) 0x8017
    (fun t => t.readV 0 == 0xFE && t.readV 15 == 0x00) = true := by decide
theorem test_subnReg_equal : after (start [(0, 0x80), (1, 0x80)]) 0x8017
    (fun t => t.readV 0 == 0x00 && t.readV 15 == 0x01) = true := by decide
/-- Section 2.3, rows `FF`,`01` and same register `7F`. -/
theorem test_shl : after (start [(0, 0xFF), (1, 0x01)]) 0x801E
    (fun t => t.readV 0 == 0xFE && t.readV 15 == 0x01) = true := by decide
theorem test_shl_same : after (start [(2, 0x7F)]) 0x822E
    (fun t => t.readV 2 == 0xFE && t.readV 15 == 0x00) = true := by decide
/-- T45. -/
theorem test_ldI : after { State.reset with I := 0x1234 } 0xAFFF (fun t => t.I == 0x0FFF) = true := by decide
/-- T24, T25. -/
theorem test_jpV0 : after (start [(0, 0x02)]) 0xBFFF (fun t => t.PC == 0x1001) = true ∧
    after (start [(0, 0xFF)]) 0xBFFF (fun t => t.PC == 0x10FE) = true := by decide
/-- T47, T50. -/
theorem test_rnd : after { State.reset with rndAnswers := [0xA7] } 0xC30F
    (fun t => t.readV 3 == 0x07 && t.rndAnswers == []) = true := by decide
theorem test_rnd_vf : after { State.reset with rndAnswers := [0xFF, 0x11] } 0xCF81
    (fun t => t.readV 15 == 0x81 && t.rndAnswers == [0x11]) = true := by decide
/-- T68: a collision in row 0 is not cleared by the clean row 1. -/
theorem test_drw : after { (startMem [(0x300, 0x80), (0x301, 0x80)] []).writePixel 0 0 true with I := 0x0300 } 0xD012
    (fun t => !t.pixel 0 0 && t.pixel 0 1 && t.readV 15 == 0x01 && t.dirty && t.PC == 0x0202) = true := by decide
/-- T72, with the coordinate's wrap of T64: clipped columns touch nothing and are no collision; a build with `DRW_EDGE` at
`wrap` brings them back at the left edge (43_display.md R175). -/
theorem test_drw_edge : after { (startMem [(0x300, 0xC0)] [(0, 0xFF), (1, 0xFF)]).writePixel 0 31 true with I := 0x0300 }
    0xD011 (fun t => t.pixel 0 31 && t.pixel 63 31 && !t.pixel 0 0 && t.readV 15 == 0x00) = true ∧
    after { (startMem [(0x300, 0xC0)] [(0, 0xFF), (1, 0xFF)]).writePixel 0 31 true with
        I := 0x0300, config := { Config.params with drwEdge := .wrap } }
      0xD011 (fun t => !t.pixel 0 31 && t.pixel 63 31 && t.readV 15 == 0x01) = true := by decide
/-- T84, T81. -/
theorem test_skp : after { start [(3, 0x1A)] with keys := State.reset.keys.set 10 true } 0xE39E
    (fun t => t.PC == 0x0204) = true ∧ after (start [(3, 0x0A)]) 0xE39E (fun t => t.PC == 0x0202) = true := by decide
/-- T85, T83. -/
theorem test_sknp : after { start [(3, 0xFA)] with keys := State.reset.keys.set 15 true } 0xE3A1
    (fun t => t.PC == 0x0204) = true ∧
    after { start [(3, 0x0A)] with keys := State.reset.keys.set 10 true } 0xE3A1
      (fun t => t.PC == 0x0202) = true := by decide
/-- T100. -/
theorem test_ldVxDT : after { State.reset with DT := 0x2A } 0xF107
    (fun t => t.readV 1 == 0x2A && t.DT == 0x2A) = true := by decide
/-- T86. -/
theorem test_ldVxK : after State.reset 0xF20A (fun t => t.WAIT == some 2 && t.PC == 0x0202) = true := by decide
/-- T101. -/
theorem test_ldDTVx : after (start [(0, 0x3C)]) 0xF015 (fun t => t.DT == 0x3C && t.ST == 0x00) = true := by decide
/-- T102, T103. -/
theorem test_ldSTVx : after (start [(0, 0x02)]) 0xF018 (fun t => t.ST == 0x02 && t.soundOn) = true ∧
    after { State.reset with ST := 0x09 } 0xF018 (fun t => t.ST == 0x00 && !t.soundOn) = true := by decide
/-- T105, T107; a build that masks `I` when it is written keeps 12 bits (10_state.md R23). -/
theorem test_addI : after { start [(2, 0x01), (15, 0x55)] with I := 0x0FFF } 0xF21E
    (fun t => t.I == 0x1000 && t.readV 15 == 0x55) = true := by decide
theorem test_addI_wraps : after { start [(2, 0xFF)] with I := 0xFF80 } 0xF21E (fun t => t.I == 0x007F) = true ∧
    after { start [(2, 0x01)] with I := 0x0FFF, config := { Config.params with iMaskOnWrite := true } } 0xF21E
      (fun t => t.I == 0x0000) = true := by decide
/-- T109, T111. -/
theorem test_ldF : after (start [(4, 0x1A)]) 0xF429 (fun t => t.I == 0x0082) = true ∧
    after (start [(4, 0xF7)]) 0xF429 (fun t => t.I == 0x0073) = true := by decide
/-- S7, T117. -/
theorem test_ldB : after { start [(0, 0x9D)] with I := 0x0300 } 0xF033
    (fun t => t.readByte 0x300 == 0x01 && t.readByte 0x301 == 0x05 && t.readByte 0x302 == 0x07 && t.I == 0x0300) = true := by
  decide
theorem test_ldB_wraps : after { startMem [(0x000, 0xAA)] [(0, 0xC8)] with I := 0x0FFF } 0xF033
    (fun t => t.readByte 0xFFF == 0x02 && t.readByte 0x000 == 0x00 && t.readByte 0x001 == 0x00) = true := by decide
/-- T119; T118 cut to three registers. -/
theorem test_stRegs : after { start [(0, 0x11), (1, 0x22), (2, 0x33)] with I := 0x0400 } 0xF155
    (fun t => t.readByte 0x400 == 0x11 && t.readByte 0x401 == 0x22 && t.readByte 0x402 == 0x00 && t.I == 0x0400) = true := by
  decide
theorem test_stRegs_wraps : after { start [(0, 0x11), (1, 0x22), (2, 0x33)] with I := 0x0FFE } 0xF255
    (fun t => t.readByte 0xFFE == 0x11 && t.readByte 0xFFF == 0x22 && t.readByte 0x000 == 0x33) = true := by decide
/-- T121, T122. -/
theorem test_ldRegs_font : after { start [(5, 0xEE)] with I := 0x0050 } 0xF465
    (fun t => t.readV 0 == 0xF0 && t.readV 1 == 0x90 && t.readV 4 == 0xF0 && t.readV 5 == 0xEE) = true := by decide
theorem test_ldRegs_wraps :
    after { startMem [(0xFFE, 0xA1), (0xFFF, 0xA2), (0x000, 0xA3)] [(3, 0xEE)] with PC := 0x0300, I := 0x0FFE } 0xF265
      (fun t => t.readV 0 == 0xA1 && t.readV 1 == 0xA2 && t.readV 2 == 0xA3 && t.readV 3 == 0xEE) = true := by decide
/-- T131: the diagnostic carries the word and the 12-bit address. -/
theorem test_unrecognized : after { State.reset with PC := 0x1200 } 0xFFFF
    (fun t => t.diags == [⟨0xFFFF, 0x200⟩] && t.PC == 0x1202 && !t.dirty) = true := by decide

/-! ### The other events -/

/-- T87, T88. -/
theorem test_key_down : afterEvent (.keyDown 7) { State.reset with WAIT := some 2 }
    (fun t => t.keys.get 7 && t.readV 2 == 0x07 && t.WAIT == none) = true := by decide
theorem test_key_repeat : afterEvent (.keyDown 7) { State.reset with WAIT := some 2, keys := State.reset.keys.set 7 true }
    (fun t => t.keys.get 7 && t.readV 2 == 0x00 && t.WAIT == some 2) = true := by decide
/-- T89. -/
theorem test_key_up : afterEvent (.keyUp 7) { State.reset with WAIT := some 2, keys := State.reset.keys.set 7 true }
    (fun t => !t.keys.get 7 && t.WAIT == some 2) = true := by decide
/-- T93, T142; a build with `TICK_DURING_WAIT` false keeps the timers during a wait (44_keypad.md R185). -/
theorem test_tick_in_wait : afterEvent .tick { State.reset with WAIT := some 2, DT := 0x03 }
    (fun t => t.DT == 0x02 && t.WAIT == some 2) = true ∧
    afterEvent .tick { State.reset with
        WAIT := some 2, DT := 0x03, config := { Config.params with tickDuringWait := false } }
      (fun t => t.DT == 0x03) = true := by decide
theorem test_tick : afterEvent .tick { State.reset with DT := 0x00, ST := 0x01 }
    (fun t => t.DT == 0x00 && t.ST == 0x00 && !t.soundOn) = true := by decide
/-- T94. -/
theorem test_step_in_wait : afterEvent .step { State.reset with WAIT := some 2, PC := 0x020C }
    (fun t => t.PC == 0x020C && t.WAIT == some 2 && !t.dirty) = true := by decide
/-- T151, and the first byte of glyph 0 (20_memory.md R63). -/
theorem test_load : afterEvent (.load [0x12, 0x00]) State.reset
    (fun t => t.readByte 0x200 == 0x12 && t.readByte 0x201 == 0x00 && t.readByte 0x050 == 0xF0) = true := by decide
theorem test_second_load_refused :
    step { State.reset with phase := .loaded, agenda := [.load [0x12]] } = .refused .loadNotAdmitted := rfl
/-- T150. -/
theorem test_reset : afterEvent .reset { startMem [(0x200, 0x12), (0x050, 0x00)] [(3, 0x77)] with WAIT := some 1, keys := State.reset.keys.set 7 true }
    (fun t => t.readByte 0x200 == 0x00 && t.readByte 0x050 == 0xF0 && t.readV 3 == 0x00 && t.WAIT == none &&
      t.keys.get 7 && t.PC == 0x0200) = true := by decide
/-- After `Quit` nothing is applied (60_exceptions.md R228). -/
theorem test_quit : afterEvent .quit State.reset (fun t => t.phase == .ended &&
    match step t with
    | .next u => u.phase == .ended && u.PC == t.PC
    | _ => false) = true := by decide

/-! ### The hypotheses of the statements are met -/

/-- DecodedWordsMatchTheirTableRow: a canonical word and one with ignored bits set. -/
theorem test_meets_decodedWords :
    decodeWord 0x5120 = some (.seReg 1 2) ∧ decodeWord 0x5123 = some (.seReg 1 2) := by decide

/-- UnrecognizedWordsAreExactlyThoseListed: each clause at a boundary, and a recognized neighbour of each. -/
theorem test_meets_unrecognizedWords : decodeWord 0x00DF = none ∧ decodeWord 0x00E0 ≠ none ∧ decodeWord 0x8008 = none ∧
    decodeWord 0x800D = none ∧ decodeWord 0x800F = none ∧ decodeWord 0x8007 ≠ none ∧ decodeWord 0x800E ≠ none ∧
    decodeWord 0xE09D = none ∧ decodeWord 0xE0A1 ≠ none ∧ decodeWord 0xF064 = none ∧ decodeWord 0xF065 ≠ none := by
  decide

/-- EveryAccessWrapsModulo4096: the written byte and its neighbour, at the address space's edge. -/
theorem test_meets_everyAccess : 0x000 % 4096 = 4096 % 4096 ∧ 0xFFF % 4096 ≠ 4096 % 4096 := by decide

/-- CanonicalMemoriesThatReadAlikeAreEqual. -/
theorem test_meets_canonicalMemories : ∃ m n : Memory, Memory.wf Config.font m = true ∧
    Memory.wf Config.font n = true ∧ m ≠ [] ∧ ∀ a, a < 4096 → m.read Config.font a = n.read Config.font a :=
  ⟨Memory.write Config.font [] 0x300 0x01, [(0x300, 0x01)], by decide, by decide, by decide, fun _ _ => rfl⟩

/-- CanonicalFramebuffersThatLookAlikeAreEqual: the same pixels written in another order. -/
theorem test_meets_canonicalFramebuffers : ∃ s t : State, t.config = s.config ∧
    Framebuffer.wf s.config.fbWidth s.config.fbHeight s.fb = true ∧
    Framebuffer.wf t.config.fbWidth t.config.fbHeight t.fb = true ∧
    (∀ px py, t.pixel px py = s.pixel px py) ∧ s.pixel 63 31 = true :=
  ⟨(State.reset.writePixel 63 31 true).writePixel 0 0 true, (State.reset.writePixel 0 0 true).writePixel 63 31 true,
    rfl, by decide, by decide, fun _ _ => rfl, by decide⟩

/-- StepRunsTheDecodedInstruction, IdleLoopIsAFixedPoint, StepReportsDirtyExactlyForClsAndDrw: a fetching state whose
word is a jump at its own address, above the 12-bit range. -/
theorem test_meets_idleLoop :
    ∃ s : State, Ready s ∧ IdleLoop s ∧
      decodeBytes [s.readByte s.PC.toNat, s.readByte (s.PC.toNat + 1)] = .ok (.jp 0x200, []) :=
  ⟨({ State.reset with PC := 0x1200 } : State).withFetchWord 16 0x1200, by unfold Ready; decide,
    ⟨0x200, by decide, by decide⟩, rfl⟩

/-- StepOnAnUnrecognizedWordOnlyLogsIt: the word of erased memory. -/
theorem test_meets_unrecognizedStep : Ready State.reset ∧
    (0x0000 : Word) = State.reset.readByte State.reset.PC.toNat ++ State.reset.readByte (State.reset.PC.toNat + 1) ∧
    decodeWord 0x0000 = none := by unfold Ready; decide

/-- StepReportsDirtyExactlyForClsAndDrw: both sides of the equivalence. -/
theorem test_meets_dirty : Ready (State.reset.withFetchWord 16 0xD01F) ∧
    decodeWord (State.reset.withFetchWord 16 0xD01F).fetchWord = some (.drw 0 1 15) ∧
    Ready (State.reset.withFetchWord 16 0x00E0) ∧
    decodeWord (State.reset.withFetchWord 16 0x00E0).fetchWord = some .cls ∧
    Ready (State.reset.withFetchWord 16 0x7000) := by unfold Ready; decide

/-- StepWhileAwaitingAKeyChangesNothing: the state of T28. -/
def waiting : State := { State.reset with WAIT := some 2, PC := 0x020C, phase := .running }

theorem test_meets_waitingStep : waiting.phase ≠ .ended ∧ waiting.nextEvent = .step ∧ waiting.WAIT = some 2 := by
  decide

/-- StepAppliesTheHostsNextEvent: a laid-down event, and none. -/
theorem test_meets_stepApplies : ∃ s : State, s.phase ≠ .ended ∧ s.agenda = .tick :: [.step] ∧
    State.reset.phase ≠ .ended ∧ State.reset.agenda = [] :=
  ⟨{ State.reset with agenda := [.tick, .step] }, by decide, rfl, by decide, rfl⟩

/-- CallPushesTheAdvancedPCAndJumps: the written entry and another. -/
theorem test_meets_call : (0 : Nibble) = State.reset.SP ∧ (15 : Nibble) ≠ State.reset.SP := by decide

/-- SkipsOnAnImmediate, SkipsOnTwoRegisters: equal and different operands. -/
theorem test_meets_skips : (State.reset.readV 0).toNat = (State.reset.readV 1).toNat ∧
    (State.reset.readV 0).toNat = (0x00 : Byte).toNat ∧ (State.reset.readV 0).toNat ≠ (0xFF : Byte).toNat ∧
    ((start [(1, 0x80)]).readV 0).toNat ≠ ((start [(1, 0x80)]).readV 1).toNat := by decide

/-- SixteenNestedCallsReturnInOrder: the longest list. -/
theorem test_meets_sixteen : (List.replicate 16 (0x300 : Addr)).length ≤ 16 := by decide

/-- SeventeenthCallOverwritesTheOldestReturn. -/
theorem test_meets_seventeenth : (List.replicate 15 (0x300 : Addr)).length = 15 := by decide

/-- LdImmLoadsTheImmediate, AddImmWrapsAndWritesNoFlag, LdVxDTReadsTheDelayTimer, CopyAndLogicWriteNoFlag,
AddRegSetsTheCarry, SubtractionsSetNoBorrow, ShiftsMoveOneBitIntoVF: a destination that is not `VF`, a register
that is neither, and the destination `VF`; both values of a carry and a no-borrow. -/
theorem test_meets_registers : (0 : Reg) ≠ 15 ∧ (1 : Reg) ≠ 0 ∧ (1 : Reg) ≠ 15 ∧ (15 : Reg) = 15 ∧
    255 < (0xFF : Byte).toNat + (0x01 : Byte).toNat ∧ ¬ 255 < (0x0F : Byte).toNat + (0xF0 : Byte).toNat ∧
    (0x80 : Byte).toNat ≥ (0x80 : Byte).toNat ∧ ¬ (0x03 : Byte).toNat ≥ (0x05 : Byte).toNat := by decide

/-- RndStoresTheMaskedDraw: a wanted value under the mask, the zero mask, an answer laid down and none. -/
theorem test_meets_rnd : (0x07 : Byte) &&& ~~~(0x0F : Byte) = 0 ∧ (0x00 : Byte) &&& ~~~(0x00 : Byte) = 0 ∧
    (∃ s : State, ∃ rest, s.rndAnswers = 0xA7 :: rest) ∧ State.reset.rndAnswers = [] :=
  ⟨by decide, by decide, ⟨{ State.reset with rndAnswers := [0xA7] }, [], rfl⟩, rfl⟩

/-- OnlyFlagWritersAndDestinationsChangeVF: both clauses, and the instruction that is outside the second. -/
theorem test_meets_flags : writesFlag (.drw 0 1 0) = true ∧ writesFlag (.shl 15 0) = true ∧
    writesFlag (.orReg 14 15) = false ∧ namedDestination (.orReg 14 15) ≠ some 15 ∧
    writesFlag (.ldRegs 15) = false ∧ namedDestination (.ldRegs 15) = some 15 := by decide

/-- A state with one pixel on in the corner and the sprite row `0xC0` at `I`. -/
def corner : State := { (startMem [(0x300, 0xC0)] [(0, 0xFF), (1, 0xFF)]).writePixel 63 31 true with I := 0x0300 }

/-- DrwXorsTheClippedSprite: the last pixel of the grid, on and under a set bit. -/
theorem test_meets_drw : corner.config.drwEdge = .clip ∧ 63 = (corner.readV 0).toNat % corner.config.fbWidth ∧
    31 = (corner.readV 1).toNat % corner.config.fbHeight ∧ InGrid corner 63 31 ∧ corner.pixel 63 31 = true ∧
    spriteBit corner 63 31 1 63 31 = true := by decide

/-- DrwUnderEitherEdgeRule: a draw that collides because a pixel is on, one that does because a narrow sprite wraps onto
itself, and one that does not. -/
theorem test_meets_drwEdge : Collides corner 63 31 1 ∧ ¬ Collides corner 63 31 0 ∧
    ∃ s : State, s.config.drwEdge = .wrap ∧ s.fb = [] ∧ Collides s 0 0 1 := by
  refine ⟨⟨63, 31, by decide, .inl ⟨by decide, by decide⟩⟩, ?_,
    ⟨{ corner with config := { Config.params with drwEdge := .wrap, fbWidth := 1 }, fb := [] }, rfl, rfl,
      ⟨0, 0, by decide, .inr (by decide)⟩⟩⟩
  rintro ⟨px, py, -, h⟩
  simp [spriteHits] at h

/-- DrawingTwiceRestoresTheFramebuffer: a first draw that leaves its coordinates, from an empty framebuffer and from
one with a pixel on. -/
theorem test_meets_drawingTwice :
    (∃ t, exec (.drw 0 1 1) State.reset = .next t ∧ t.readV 0 = State.reset.readV 0 ∧
      t.readV 1 = State.reset.readV 1) ∧ (∀ px py, State.reset.pixel px py = false) ∧
    0 = (State.reset.readV 0).toNat % State.reset.config.fbWidth ∧
    0 = (State.reset.readV 1).toNat % State.reset.config.fbHeight ∧
    (∃ t, exec (.drw 0 1 1) corner = .next t ∧ t.readV 0 = corner.readV 0 ∧ t.readV 1 = corner.readV 1) :=
  ⟨⟨_, rfl, by decide, by decide⟩, fun _ _ => by simp [State.pixel, State.reset], by decide, by decide,
    ⟨_, rfl, by decide, by decide⟩⟩

/-- KeySkipsFollowTheKey: a register whose high bits are set, its key down and up. -/
theorem test_meets_keySkips : (10 : Key).val = ((start [(3, 0xFA)]).readV 3).toNat % 16 ∧
    (State.reset.keys.set 10 true).get 10 = true ∧ State.reset.keys.get 10 = false := by decide

/-- KeyEventsCompleteTheWait: a press that ends a wait, a repeat, and a press with no key awaited. -/
theorem test_meets_keyEvents : waiting.keys.get 0 = false ∧ waiting.WAIT = some 2 ∧
    (waiting.keys.set 15 true).get 15 = true ∧ State.reset.WAIT = none ∧ (0 : Reg) ≠ 2 := by decide

/-- OnlyFx0AEntersAndOnlyKeyDownOrResetLeavesTheWait: entering it, and leaving it by a key and by `Reset`. -/
theorem test_meets_wait :
    (∃ t, step (State.reset.withFetchWord 16 0xF20A) = .next t ∧ (State.reset.withFetchWord 16 0xF20A).WAIT = none ∧
      t.WAIT = some 2) ∧
    (∃ t, step { waiting with agenda := [.keyDown 0] } = .next t ∧ t.WAIT ≠ some 2) ∧
    (∃ t, step { waiting with agenda := [.reset] } = .next t ∧ t.WAIT ≠ some 2) :=
  ⟨⟨_, rfl, by decide, by decide⟩, ⟨_, rfl, by decide⟩, ⟨_, rfl, by decide⟩⟩

/-- LdBStoresTheDecimalDigits, StoreRegistersWritesTheRange, LoadRegistersReadsTheRange: at the address space's edge,
stored and loaded places and their neighbours. -/
theorem test_meets_transfers : ∃ s : State, s.I = 0x0FFF ∧ (∀ k, k < 3 → 0x002 % 4096 ≠ s.indexed k % 4096) ∧
    (∀ k : Reg, k ≤ 2 → 0x002 % 4096 ≠ s.indexed k.val % 4096) ∧ s.indexed 1 % 4096 = 0x000 ∧
    (2 : Reg) ≤ 2 ∧ ¬ (3 : Reg) ≤ 2 := by
  refine ⟨{ State.reset with I := 0x0FFF }, rfl, ?_, ?_, by decide, by decide, by decide⟩
  · intro k hk; interval_cases k <;> decide
  · decide

/-- StoreThenLoadGivesTheRegistersBack: all sixteen registers, another register value in between. -/
theorem test_meets_roundTrip : ∃ t u : State, exec (.stRegs 15) State.reset = .next t ∧ u.readV 3 = 0xEE ∧
    (∀ a, u.readByte a = t.readByte a) ∧ u.I = t.I ∧ (15 : Reg) ≤ 15 := by
  have h : ∀ t : State, ∃ u : State, u.readV 3 = 0xEE ∧ (∀ a, u.readByte a = t.readByte a) ∧ u.I = t.I :=
    fun t => ⟨t.writeV 3 0xEE, by simp, fun _ => rfl, rfl⟩
  obtain ⟨u, h1, h2, h3⟩ := h ((regRange 15).foldl State.storeReg State.reset)
  exact ⟨_, u, rfl, h1, h2, h3, by decide⟩

/-- TimersAreWrittenFromVx, TickDecrementsBothTimers, SoundIsOnExactlyWhileSTIsNonzero: no key awaited, a key awaited and
the tick counted, a key awaited and the tick not counted. -/
theorem test_meets_tick : State.reset.WAIT = none ∧ (waiting.WAIT ≠ none ∧ waiting.config.tickDuringWait = true) ∧
    ∃ s : State, s.WAIT ≠ none ∧ s.config.tickDuringWait = false :=
  ⟨rfl, by decide, { waiting with config := { Config.params with tickDuringWait := false } }, by decide, rfl⟩

/-- NoStepChangesTheConfiguration: a step of another build. -/
theorem test_meets_configuration : ∃ s t : State, step s = .next t ∧ s.config.fbWidth = 128 :=
  ⟨{ State.reset with config := { Config.params with fbWidth := 128 } }, _, rfl, rfl⟩

/-- TicksCountDownToZero: six ticks (S9) and a step to come. -/
theorem test_meets_ticks : ∃ s : State, s.phase ≠ .ended ∧ s.WAIT = none ∧ s.agenda = List.replicate 6 .tick ++ [.step] :=
  ⟨{ State.reset with agenda := List.replicate 6 .tick ++ [.step] }, by decide, rfl, rfl⟩

/-- ResetSetsEveryPieceOfState: the edges of the font's place and of memory. -/
theorem test_meets_reset : 79 < 80 ∧ (0x04F < 0x050 ∨ (0x0A0 ≤ 0x04F ∧ 0x04F < 4096)) ∧
    (0x0A0 < 0x050 ∨ (0x0A0 ≤ 0x0A0 ∧ 0x0A0 < 4096)) ∧ (0xFFF < 0x050 ∨ (0x0A0 ≤ 0xFFF ∧ 0xFFF < 4096)) := by
  decide

/-- LoadPutsTheImageAt0x200: admitted and not, the last byte that fits, the places just outside. -/
theorem test_meets_load : State.reset.phase = .reset ∧ waiting.phase = .running ∧
    (∃ s : State, s.phase = .loaded) ∧ 3583 < (List.replicate 3585 (0x11 : Byte)).length ∧ 3583 < 3584 ∧
    0x1FF < 0x200 ∧ 0x200 + [(0x12 : Byte), 0x00].length ≤ 0x202 ∧ 0x202 < 4096 := by
  refine ⟨rfl, rfl, ⟨{ State.reset with phase := .loaded }, rfl⟩, ?_⟩
  rw [List.length_replicate]
  decide

/-- EveryStepKeepsTheInvariant: from reset, and from a state that awaits a key and has a diagnostic in its log. -/
theorem test_meets_invariant : (∃ t, StateInv State.reset ∧ step State.reset = .next t) ∧
    ∃ t, StateInv { waiting with diags := [⟨0xFFFF, 0x200⟩] } ∧
      step { waiting with diags := [⟨0xFFFF, 0x200⟩] } = .next t := by
  unfold StateInv
  exact ⟨⟨_, by decide, rfl⟩, ⟨_, by decide, rfl⟩⟩

/-- OnlyALateLoadIsEverRefused: both clauses, both refused phases. -/
theorem test_meets_lateLoad :
    (∃ s : State, (∃ image, s.nextEvent = .load image) ∧ s.phase = .loaded) ∧
    (∃ s : State, (∃ image, s.nextEvent = .load image) ∧ s.phase = .running) ∧
    (∃ s : State, (∃ image, s.nextEvent = .load image) ∧ ¬ (s.phase = .loaded ∨ s.phase = .running)) :=
  ⟨⟨{ State.reset with phase := .loaded, agenda := [.load [0x12]] }, ⟨_, rfl⟩, rfl⟩,
    ⟨{ State.reset with phase := .running, agenda := [.load []] }, ⟨_, rfl⟩, rfl⟩,
    ⟨{ State.reset with agenda := [.load [0x12]] }, ⟨_, rfl⟩, by decide⟩⟩

/-- DiagnosticLogIsAppendOnly: a step that logs and one that does not. -/
theorem test_meets_log : (∃ t, step State.reset = .next t ∧ decodeWord State.reset.fetchWord = none) ∧
    (∃ t, step waiting = .next t ∧ ¬ Ready waiting) :=
  ⟨⟨_, rfl, by decide⟩, ⟨_, rfl, by unfold Ready; decide⟩⟩

/-- OnlyStepAndResetChangeTheCore: a tick, and a load. -/
theorem test_meets_owners :
    (∃ s t : State, step s = .next t ∧ s.nextEvent = .tick) ∧
    (∃ s t : State, step s = .next t ∧ s.nextEvent = .load [0x12]) :=
  ⟨⟨{ State.reset with agenda := [.tick] }, _, rfl, rfl⟩, ⟨{ State.reset with agenda := [.load [0x12]] }, _, rfl, rfl⟩⟩

/-- HighAddressBitsAreUnobservable: two states that differ above bit 11, each with a next state; and two refused. -/
theorem test_meets_highBits :
    (∃ s t s' : State, SameBelow12 s t ∧ s ≠ t ∧ step s = .next s') ∧
    (∃ s t : State, SameBelow12 s t ∧ s ≠ t ∧ step s = .refused .loadNotAdmitted) := by
  refine ⟨⟨State.reset, { State.reset with PC := 0xF200, I := 0x1000 }, _, ?_, by decide, rfl⟩,
    ⟨{ State.reset with phase := .loaded, agenda := [.load []] },
      { State.reset with phase := .loaded, agenda := [.load []], I := 0x8000 }, ?_, by decide, rfl⟩⟩ <;>
  · refine ⟨by decide, by decide, fun _ => rfl, ?_⟩
    intro p hp
    cases p <;> simp_all [Piece.Same, State.readByte, State.readV, State.pixel]

end Sys2Proof.Tests
end

section
/-! The proofs about 20_memory.md: every access reduces its address modulo 4096. -/

namespace Sys2Proof.Machine

/-- The reduction written out as in R61: an address and its residue are the same address. -/
@[simp] theorem wrapAddr_mod_4096 (a : Nat) : wrapAddr (a % 4096) = wrapAddr a := wrapAddr_wrapAddr a

/-- Addresses with the same reduction read the same byte (20_memory.md R61, R69). -/
theorem State.readByte_congr (s : State) {a b : Nat} (h : wrapAddr a = wrapAddr b) : s.readByte a = s.readByte b :=
  congrArg (Memory.read s.config.fontTable s.mem) h

/-- Writes at addresses with the same reduction are the same write (20_memory.md R61, R69). -/
theorem State.writeByte_congr (s : State) {a b : Nat} (v : Byte) (h : wrapAddr a = wrapAddr b) :
    s.writeByte a v = s.writeByte b v :=
  congrArg (fun c => { s with mem := Memory.write s.config.fontTable s.mem c v }) h

theorem State.readByte_mod_4096 (s : State) (a : Nat) : s.readByte (a % 4096) = s.readByte a :=
  s.readByte_congr (wrapAddr_mod_4096 a)

theorem State.writeByte_mod_4096 (s : State) (a : Nat) (v : Byte) : s.writeByte (a % 4096) v = s.writeByte a v :=
  s.writeByte_congr v (wrapAddr_mod_4096 a)

/-- `MemRead(addr, 2)` reduces the address of each of its two bytes (20_memory.md R61, R65). -/
theorem State.readWord_eq_bytes_mod_4096 (s : State) (a : Nat) :
    s.readWord a = s.readByte (a % 4096) ++ s.readByte ((a + 1) % 4096) := by
  rw [s.readByte_mod_4096 a, s.readByte_mod_4096 (a + 1)]
  rfl

/-- Settles O5: each access depends on its address through `wrapAddr` only, and a read after a write compares the
two reduced addresses. -/
theorem everyAccessWrapsModulo4096 : Obligations.EveryAccessWrapsModulo4096 := by
  intro s a
  have past_end : s.readByte (0xFFF + 1) = s.readByte 0x000 := s.readByte_congr rfl
  refine ⟨(s.readByte_mod_4096 a).symm, past_end, fun v => ⟨(s.writeByte_mod_4096 a v).symm, fun b => ?_⟩,
    s.readWord_eq_bytes_mod_4096 a⟩
  exact s.readByte_writeByte a v b

end Sys2Proof.Machine
end

section
/-! The proofs about 40_control_flow.md: what a jump's word is, and where its target goes. -/

namespace Sys2Proof

/-- `0xF000` keeps exactly the group of a word (30_encoding.md R91, R101). -/
theorem and_F000_eq_iff (w : Word) (op : Nibble) : w &&& 0xF000 = packXNN op 0 0 ↔ fieldOp w = op := by
  refine (Eq.congr_left (and_F000 w)).trans ⟨fun h => ?_, fun h => by rw [h]⟩
  simpa using congrArg fieldOp h

theorem fieldOp_encode_of_decodeGroup0 {nn : Byte} {i : Instr} (h : decodeGroup0 nn = some i) :
    fieldOp (encode i) = 0x0#4 := by
  unfold decodeGroup0 at h
  split_ifs at h <;> cases h <;> simp [encode]

theorem fieldOp_encode_of_decodeGroup8 {x y : Reg} {n : Nibble} {i : Instr} (h : decodeGroup8 x y n = some i) :
    fieldOp (encode i) = 0x8#4 := by
  unfold decodeGroup8 at h
  split at h <;> cases h <;> simp [encode]

theorem fieldOp_encode_of_decodeGroupE {x : Reg} {nn : Byte} {i : Instr} (h : decodeGroupE x nn = some i) :
    fieldOp (encode i) = 0xE#4 := by
  unfold decodeGroupE at h
  split_ifs at h <;> cases h <;> simp [encode]

theorem fieldOp_encode_of_decodeGroupF {x : Reg} {nn : Byte} {i : Instr} (h : decodeGroupF x nn = some i) :
    fieldOp (encode i) = 0xF#4 := by
  unfold decodeGroupF at h
  split_ifs at h <;> cases h <;> simp [encode]

/-- The decoder answers an instruction of the word's own group (30_encoding.md R94). -/
theorem fieldOp_encode_of_decodeWord {w : Word} {i : Instr} (h : decodeWord w = some i) :
    fieldOp (encode i) = fieldOp w := by
  apply BitVec.eq_of_toNat_eq
  unfold decodeWord at h
  split at h
  case h_1 hop => rw [hop, fieldOp_encode_of_decodeGroup0 h]; rfl
  case h_9 hop => rw [hop, fieldOp_encode_of_decodeGroup8 h]; rfl
  case h_15 hop => rw [hop, fieldOp_encode_of_decodeGroupE h]; rfl
  case h_16 =>
    have hop : (fieldOp w).toNat = 15 := by
      have hlt := (fieldOp w).isLt
      grind
    rw [hop, fieldOp_encode_of_decodeGroupF h]; rfl
  all_goals
    cases h
    simp [encode, *]

/-- A group that stands for one instruction, whose word alone says which: recognised by its top four bits. -/
theorem recognises_of_group {op : Nibble} {build : Word → Instr} (hop : ∀ w, fieldOp (encode (build w)) = op)
    (hdecode : ∀ w, fieldOp w = op → decodeWord w = some (build w)) :
    Machine.Recognises 0xF000 (packXNN op 0 0) build := by
  intro w
  rw [and_F000_eq_iff]
  exact ⟨fun h => (fieldOp_encode_of_decodeWord h).symm.trans (hop w), hdecode w⟩

end Sys2Proof

namespace Sys2Proof.Machine

theorem recognises_jp : Recognises 0xF000 0x1000 (fun w => .jp (fieldNNN w)) :=
  recognises_of_group (op := 0x1) (fun w => fieldOp_packNNN 0x1 (fieldNNN w))
    (fun w h => by unfold decodeWord; rw [h]; rfl)

theorem recognises_jpV0 : Recognises 0xF000 0xB000 (fun w => .jpV0 (fieldNNN w)) :=
  recognises_of_group (op := 0xB) (fun w => fieldOp_packNNN 0xB (fieldNNN w))
    (fun w h => by unfold decodeWord; rw [h]; rfl)

@[simp] theorem exec_jp (nnn : Addr) (s : State) : exec (.jp nnn) s = .next (s.writePC (zextAddr nnn)) := rfl

@[simp] theorem exec_jpV0 (nnn : Addr) (s : State) :
    exec (.jpV0 nnn) s = .next (s.writePC (zextAddr nnn + zextByte (s.readV 0))) := rfl

@[simp] theorem toNat_zextAddr (nnn : Addr) : (zextAddr nnn).toNat = nnn.toNat :=
  BitVec.toNat_setWidth_of_le (by decide)

@[simp] theorem toNat_zextByte (v : Byte) : (zextByte v).toNat = v.toNat :=
  BitVec.toNat_setWidth_of_le (by decide)

/-- The largest sum, 4095 + 255, is far below `2^16`: nothing is lost when it is written (40_control_flow.md R129). -/
theorem toNat_zextAddr_add_zextByte (nnn : Addr) (v : Byte) :
    (zextAddr nnn + zextByte v).toNat = nnn.toNat + v.toNat := by
  have hnnn := nnn.isLt
  have hv := v.isLt
  rw [BitVec.toNat_add, toNat_zextAddr, toNat_zextByte]
  omega

/-- The fetch reduces the address of each of its bytes, however large `PC` is (20_memory.md R61, R65). -/
theorem State.fetchWord_writePC (s : State) (v : Word) :
    (s.writePC v).fetchWord = s.readByte (v.toNat % 4096) ++ s.readByte ((v.toNat + 1) % 4096) :=
  s.readWord_eq_bytes_mod_4096 v.toNat

/-- Settles O13: the group `0x1` is `JP` alone, and zero extension keeps the address. -/
theorem jpSetsPCToTheAddress : Obligations.JpSetsPCToTheAddress :=
  ⟨recognises_jp, fun nnn s => ⟨_, exec_jp nnn s, toNat_zextAddr nnn, s.frame_writePC _⟩⟩

/-- Settles O17: the group `0xB` is `JP V0` alone, the sum does not overflow 16 bits, and the next fetch reduces it. -/
theorem jpV0AddsV0ToTheAddress : Obligations.JpV0AddsV0ToTheAddress := by
  refine ⟨recognises_jpV0, fun nnn s => ⟨_, exec_jpV0 nnn s, ?_, ?_, s.frame_writePC _⟩⟩
  · exact toNat_zextAddr_add_zextByte nnn (s.readV 0)
  · rw [s.fetchWord_writePC, toNat_zextAddr_add_zextByte]

end Sys2Proof.Machine
end

section
/-! The proofs about 41_load_immediate.md: an 8-bit immediate loaded or added, and the address loaded into `I`. -/

namespace Sys2Proof.Machine

theorem recognises_ldImm : Recognises 0xF000 0x6000 (fun w => .ldImm (fieldX w) (fieldNN w)) :=
  recognises_of_group (op := 0x6) (fun w => fieldOp_packXNN 0x6 (fieldX w) (fieldNN w))
    (fun w h => by unfold decodeWord; rw [h]; rfl)

theorem recognises_addImm : Recognises 0xF000 0x7000 (fun w => .addImm (fieldX w) (fieldNN w)) :=
  recognises_of_group (op := 0x7) (fun w => fieldOp_packXNN 0x7 (fieldX w) (fieldNN w))
    (fun w h => by unfold decodeWord; rw [h]; rfl)

theorem recognises_ldI : Recognises 0xF000 0xA000 (fun w => .ldI (fieldNNN w)) :=
  recognises_of_group (op := 0xA) (fun w => fieldOp_packNNN 0xA (fieldNNN w))
    (fun w h => by unfold decodeWord; rw [h]; rfl)

@[simp] theorem exec_ldImm (x : Reg) (nn : Byte) (s : State) : exec (.ldImm x nn) s = .next (s.writeV x nn) := rfl

@[simp] theorem exec_addImm (x : Reg) (nn : Byte) (s : State) :
    exec (.addImm x nn) s = .next (s.writeV x (s.readV x + nn)) := rfl

@[simp] theorem exec_ldI (nnn : Addr) (s : State) : exec (.ldI nnn) s = .next (s.writeI (zextAddr nnn)) := rfl

/-- A zero-extended address is stored whole, whether or not `I` is masked when written (10_state.md R23). -/
theorem State.toNat_I_writeI_zextAddr (s : State) (nnn : Addr) : (s.writeI (zextAddr nnn)).I.toNat = nnn.toNat := by
  have hsmall : (zextAddr nnn).toNat < 4096 := (toNat_zextAddr nnn).trans_lt nnn.isLt
  rw [s.writeI_small _ hsmall, toNat_zextAddr]

/-- Settles O21: the group `0x6` is `LD Vx,nn` alone, and its one register write takes any `x`, 15 included. -/
theorem ldImmLoadsTheImmediate : Obligations.LdImmLoadsTheImmediate :=
  ⟨recognises_ldImm, fun x nn s => ⟨_, exec_ldImm x nn s, s.readV_writeV x nn, s.frame_writeV x nn⟩⟩

/-- Settles O22: the group `0x7` is `ADD Vx,nn` alone, an 8-bit sum is modulo 256, and its one register write is
to `x`. -/
theorem addImmWrapsAndWritesNoFlag : Obligations.AddImmWrapsAndWritesNoFlag := by
  refine ⟨recognises_addImm, fun x nn s => ⟨_, exec_addImm x nn s, ?_, fun r hr => ?_, s.frame_writeV x _⟩⟩
  · rw [s.readV_writeV, if_pos rfl, BitVec.toNat_add]
  · rw [s.readV_writeV, if_neg hr]

/-- Settles O23: the group `0xA` is `LD I,nnn` alone, and the address is stored whole on a build that masks `I` too. -/
theorem ldILoadsTheAddress : Obligations.LdILoadsTheAddress :=
  ⟨recognises_ldI, fun nnn s => ⟨_, exec_ldI nnn s, s.toNat_I_writeI_zextAddr nnn, s.frame_writeI _⟩⟩

end Sys2Proof.Machine
end

section
/-! The proofs about 45_timer_index_memory.md: the words of group `0xF`, the timers written from a register, the glyph's
address and the decimal digits. -/

namespace Sys2Proof

/-- `0xF0FF` keeps exactly the group and the sub-select of a word (30_encoding.md R98, R101). -/
theorem and_F0FF_eq_iff (w : Word) (op : Nibble) (nn : Byte) :
    w &&& 0xF0FF = packXNN op 0 nn ↔ fieldOp w = op ∧ fieldNN w = nn := by
  refine (Eq.congr_left (and_F0FF w)).trans ⟨fun h => ⟨?_, ?_⟩, fun ⟨hop, hnn⟩ => by rw [hop, hnn]⟩
  · simpa using congrArg fieldOp h
  · simpa using congrArg fieldNN h

theorem decodeWord_of_fieldOp_F {w : Word} (h : fieldOp w = 0xF#4) :
    decodeWord w = decodeGroupF (fieldX w) (fieldNN w) := by
  unfold decodeWord; rw [h]; rfl

theorem fieldNN_encode_of_decodeGroupF {x : Reg} {nn : Byte} {i : Instr} (h : decodeGroupF x nn = some i) :
    fieldNN (encode i) = nn := by
  unfold decodeGroupF at h
  split_ifs at h <;> cases h <;> simp [encode, *]

/-- An instruction of the group `0xF` is recognised by its top four bits and its sub-select (30_encoding.md R98). -/
theorem recognises_of_groupF {nn : Byte} {build : Reg → Instr} (hdecode : ∀ x, decodeGroupF x nn = some (build x)) :
    Machine.Recognises 0xF0FF (packXNN 0xF 0 nn) (fun w => build (fieldX w)) := by
  intro w
  rw [and_F0FF_eq_iff]
  constructor
  · intro h
    have hop : fieldOp w = 0xF#4 :=
      (fieldOp_encode_of_decodeWord h).symm.trans (fieldOp_encode_of_decodeGroupF (hdecode (fieldX w)))
    rw [decodeWord_of_fieldOp_F hop] at h
    exact ⟨hop, (fieldNN_encode_of_decodeGroupF h).symm.trans (fieldNN_encode_of_decodeGroupF (hdecode (fieldX w)))⟩
  · rintro ⟨hop, rfl⟩
    exact (decodeWord_of_fieldOp_F hop).trans (hdecode (fieldX w))

end Sys2Proof

namespace Sys2Proof.Machine

theorem recognises_ldDTVx : Recognises 0xF0FF 0xF015 (fun w => .ldDTVx (fieldX w)) :=
  recognises_of_groupF (nn := 0x15) fun _ => rfl

theorem recognises_ldSTVx : Recognises 0xF0FF 0xF018 (fun w => .ldSTVx (fieldX w)) :=
  recognises_of_groupF (nn := 0x18) fun _ => rfl

theorem recognises_ldF : Recognises 0xF0FF 0xF029 (fun w => .ldF (fieldX w)) :=
  recognises_of_groupF (nn := 0x29) fun _ => rfl

theorem recognises_ldB : Recognises 0xF0FF 0xF033 (fun w => .ldB (fieldX w)) :=
  recognises_of_groupF (nn := 0x33) fun _ => rfl

@[simp] theorem exec_ldDTVx (x : Reg) (s : State) : exec (.ldDTVx x) s = .next (s.writeDT (s.readV x)) := rfl

@[simp] theorem exec_ldSTVx (x : Reg) (s : State) : exec (.ldSTVx x) s = .next (s.writeST (s.readV x)) := rfl

@[simp] theorem exec_ldF (x : Reg) (s : State) : exec (.ldF x) s = .next (s.writeI (glyphAddress (s.readV x))) := rfl

@[simp] theorem exec_ldB (x : Reg) (s : State) :
    exec (.ldB x) s = .next (s.writeBytes (s.indexed 0) (decimalDigits (s.readV x))) := rfl

/-! ### The timers -/

/-- The saturating decrement is the subtraction of natural numbers (60_exceptions.md R219). -/
theorem toNat_countDown (v : Byte) : (countDown v).toNat = v.toNat - 1 := by
  unfold countDown
  split_ifs with hzero
  · rw [hzero]; rfl
  · have hpos : v.toNat ≠ 0 := fun h => hzero (BitVec.eq_of_toNat_eq h)
    bv_omega

/-- A tick counts when no key is awaited, whatever `TICK_DURING_WAIT` is (60_exceptions.md R219). -/
theorem State.tick_of_not_waiting (s : State) (hwait : s.WAIT = none) :
    s.tick = { s with DT := countDown s.DT, ST := countDown s.ST } := by
  unfold State.tick; rw [hwait]; rfl

theorem State.toNat_DT_tick (s : State) (hwait : s.WAIT = none) : s.tick.DT.toNat = s.DT.toNat - 1 := by
  rw [s.tick_of_not_waiting hwait]
  exact toNat_countDown s.DT

theorem State.soundOn_iff (s : State) : s.soundOn = true ↔ s.ST.toNat ≠ 0 := by
  rw [State.soundOn, bne_iff_ne, ne_eq, ← BitVec.toNat_inj]; rfl

/-- Settles O40: each of the two words is one sub-select of the group `0xF`, each write is of one timer, and a tick
with no key awaited counts the value just written. -/
theorem timersAreWrittenFromVx : Obligations.TimersAreWrittenFromVx := by
  refine ⟨recognises_ldDTVx, recognises_ldSTVx, fun x s =>
    ⟨⟨_, exec_ldDTVx x s, s.writeDT_DT _, s.frame_writeDT _, fun hwait => ⟨_, rfl, ?_⟩⟩,
      ⟨_, exec_ldSTVx x s, s.writeST_ST _, State.soundOn_iff _, s.frame_writeST _⟩⟩⟩
  exact (s.writeDT (s.readV x)).toNat_DT_tick hwait

/-! ### The glyph -/

@[simp] theorem val_lowNibble (v : Byte) : (lowNibble v).val = v.toNat % 16 := by
  simp [lowNibble]

/-- The last glyph begins at `0x09B`: the address is computed without overflow (45_timer_index_memory.md R194). -/
theorem toNat_glyphAddress (v : Byte) : (glyphAddress v).toNat = 0x050 + 5 * (v.toNat % 16) := by
  rw [glyphAddress, BitVec.toNat_ofNat, val_lowNibble, Config.fontStart]
  omega

/-- Settles O42: a glyph's address is below 4096, so it is stored whole on a build that masks `I` too. -/
theorem ldFPointsIAtTheGlyph : Obligations.LdFPointsIAtTheGlyph := by
  refine ⟨recognises_ldF, fun x s => ⟨_, exec_ldF x s, ?_, s.frame_writeI _⟩⟩
  have haddr := toNat_glyphAddress (s.readV x)
  rw [s.writeI_small _ (by omega), haddr]

/-! ### The decimal digits -/

@[simp] theorem length_decimalDigits (v : Byte) : (decimalDigits v).length = 3 := rfl

/-- The stored digits read back at `I`, `I + 1`, `I + 2`, also where these pass `0xFFF` (45_timer_index_memory.md R195). -/
theorem State.readByte_writeBytes_decimalDigits (s : State) (v : Byte) (k : Nat) (hk : k < 3) :
    (s.writeBytes (s.indexed 0) (decimalDigits v)).readByte (s.indexed k) = (decimalDigits v)[k] :=
  s.readByte_writeBytes (s.indexed 0) (decimalDigits v) (by simp [Config.memSize]) k hk

/-- Settles O43: three digits fit in memory without overlap, so each is read back where it was stored, and an address
with another reduction is not touched. -/
theorem ldBStoresTheDecimalDigits : Obligations.LdBStoresTheDecimalDigits := by
  refine ⟨recognises_ldB, fun x s => ⟨_, exec_ldB x s, ?_, ?_, ?_, fun a ha => ?_, s.frame_writeBytes _ _⟩⟩
  · have hv := (s.readV x).isLt
    rw [s.readByte_writeBytes_decimalDigits _ 0 (by decide)]
    exact (BitVec.toNat_ofNat _ 8).trans (Nat.mod_eq_of_lt (by omega))
  · rw [s.readByte_writeBytes_decimalDigits _ 1 (by decide)]
    exact (BitVec.toNat_ofNat _ 8).trans (Nat.mod_eq_of_lt (by omega))
  · rw [s.readByte_writeBytes_decimalDigits _ 2 (by decide)]
    exact (BitVec.toNat_ofNat _ 8).trans (Nat.mod_eq_of_lt (by omega))
  · exact s.readByte_writeBytes_outside _ _ a ha

end Sys2Proof.Machine
end

section
/-! The proofs about 30_encoding.md: the word and the bytes of an instruction decode to it, a decoded word is its
instruction's own word but for ignored bits, and the words that decode to nothing. -/

namespace Sys2Proof

/-! ### From an instruction to its word and back -/

/-- Each row: the group selects, and the fields of the packed word are the operands it was packed from. -/
theorem decodeWord_encode (i : Instr) : decodeWord (encode i) = some i := by
  cases i with
  | cls | ret => decide
  | jp nnn | call nnn | ldI nnn | jpV0 nnn => simp [encode, decodeWord]
  | seImm x nn | sneImm x nn | ldImm x nn | addImm x nn | rnd x nn => simp [encode, decodeWord]
  | seReg x y | sneReg x y => simp [encode, decodeWord]
  | drw x y n => simp [encode, decodeWord]
  | ldReg x y | orReg x y | andReg x y | xorReg x y | addReg x y | subReg x y | shr x y | subnReg x y | shl x y =>
    simp [encode, decodeWord, decodeGroup8]
  | skp x | sknp x => simp [encode, decodeWord, decodeGroupE]
  | ldVxDT x | ldVxK x | ldDTVx x | ldSTVx x | addI x | ldF x | ldB x | stRegs x | ldRegs x =>
    simp [encode, decodeWord, decodeGroupF]

theorem decodeBytes_of_decodeWord {hi lo : Byte} {i : Instr} (h : decodeWord (wordOfBytes hi lo) = some i)
    (rest : List Byte) : decodeBytes (hi :: lo :: rest) = .ok (i, rest) := by
  simp only [decodeBytes, h]

theorem decodeBytes_encodeBytes (i : Instr) (rest : List Byte) : decodeBytes (encodeBytes i ++ rest) = .ok (i, rest) :=
  decodeBytes_of_decodeWord (by rw [wordOfBytes_bytes, decodeWord_encode]) rest

/-- Settles O1: instruction by instruction for the word, and two bytes put together again are the word. -/
theorem encodeThenDecodeGivesTheInstruction : Obligations.EncodeThenDecodeGivesTheInstruction :=
  fun i => ⟨decodeWord_encode i, decodeBytes_encodeBytes i⟩

/-- Settles O4: each of the eight words is evaluated. -/
theorem sampleWordsDecodeToTheirInstructions : Obligations.SampleWordsDecodeToTheirInstructions := by
  unfold Obligations.SampleWordsDecodeToTheirInstructions
  decide

/-! ### The ignored bits in terms of the fields (30_encoding.md R95, R99) -/

/-- `0xF00F` keeps exactly the group and the low nibble of a word (30_encoding.md R96, R101). -/
theorem and_F00F_eq_iff (w : Word) (op n : Nibble) :
    w &&& 0xF00F = packXYN op 0 0 n ↔ fieldOp w = op ∧ fieldN w = n := by
  refine (Eq.congr_left (and_F00F w)).trans ⟨fun h => ⟨?_, ?_⟩, fun ⟨hop, hn⟩ => by rw [hop, hn]⟩
  · simpa using congrArg fieldOp h
  · simpa using congrArg fieldN h

/-- Clearing the low nibble keeps the other three fields. -/
theorem and_FFF0 (w : Word) : w &&& 0xFFF0#16 = packXYN (fieldOp w) (fieldX w) (fieldY w) 0 := by
  conv_lhs => rw [← packXYN_fields w]
  unfold packXYN
  have keep (v : Nibble) : v &&& 0xF#4 = v := BitVec.and_allOnes
  rw [show (0xFFF0#16 : Word) = (0xF#4 : Nibble) ++ (0xF#4 : Nibble) ++ (0xF#4 : Nibble) ++ (0x0#4 : Nibble) from by decide,
    BitVec.and_append, BitVec.and_append, BitVec.and_append, keep, keep, keep, BitVec.and_zero]
  rfl

theorem ignoredBits_of_group0 {w : Word} (hop : fieldOp w = 0x0) (hnn : fieldNN w = 0xE0 ∨ fieldNN w = 0xEE) :
    ignoredBits w = 0x0F00 := by
  refine if_pos (hnn.imp (fun h => ?_) fun h => ?_)
  · exact (and_F0FF_eq_iff w 0x0 0xE0).mpr ⟨hop, h⟩
  · exact (and_F0FF_eq_iff w 0x0 0xEE).mpr ⟨hop, h⟩

/-- Outside the group `0x0` only the two register skips have ignored bits. -/
theorem ignoredBits_of_fieldOp_ne_zero {w : Word} (hop : fieldOp w ≠ 0x0) :
    ignoredBits w = if fieldOp w = 0x5 ∨ fieldOp w = 0x9 then 0x000F else 0x0000 := by
  have hE0 : ¬ w &&& 0xF0FF = 0x00E0 := fun h => hop ((and_F0FF_eq_iff w 0x0 0xE0).mp h).1
  have hEE : ¬ w &&& 0xF0FF = 0x00EE := fun h => hop ((and_F0FF_eq_iff w 0x0 0xEE).mp h).1
  have h5 : w &&& 0xF000 = 0x5000 ↔ fieldOp w = 0x5 := and_F000_eq_iff w 0x5
  have h9 : w &&& 0xF000 = 0x9000 ↔ fieldOp w = 0x9 := and_F000_eq_iff w 0x9
  exact (if_neg (not_or.mpr ⟨hE0, hEE⟩)).trans (if_congr (or_congr h5 h9) rfl rfl)

/-- A word outside `0x0`, `0x5` and `0x9` has no ignored bits to clear. -/
theorem clear_ignoredBits_of_none {w : Word} (h0 : fieldOp w ≠ 0x0) (h5 : fieldOp w ≠ 0x5) (h9 : fieldOp w ≠ 0x9) :
    w &&& ~~~(ignoredBits w) = w := by
  rw [ignoredBits_of_fieldOp_ne_zero h0, if_neg (not_or.mpr ⟨h5, h9⟩)]
  exact BitVec.and_allOnes

theorem clear_ignoredBits_of_regSkip {w : Word} (h : fieldOp w = 0x5 ∨ fieldOp w = 0x9) :
    w &&& ~~~(ignoredBits w) = packXYN (fieldOp w) (fieldX w) (fieldY w) 0 := by
  have h0 : fieldOp w ≠ 0x0 := by rcases h with h | h <;> rw [h] <;> decide
  rw [ignoredBits_of_fieldOp_ne_zero h0, if_pos h]
  exact and_FFF0 w

theorem clear_ignoredBits_of_group0 {w : Word} (hop : fieldOp w = 0x0) (hnn : fieldNN w = 0xE0 ∨ fieldNN w = 0xEE) :
    w &&& ~~~(ignoredBits w) = packXNN (fieldOp w) 0 (fieldNN w) := by
  rw [ignoredBits_of_group0 hop hnn]
  exact and_F0FF w

/-! ### From a word to its instruction and back -/

/-- A 4-bit field that is `k` as a number. -/
theorem eq_ofNat_of_toNat {v : Nibble} {k : Nat} (h : v.toNat = k) : v = BitVec.ofNat 4 k := by
  rw [← h, BitVec.ofNat_toNat, BitVec.setWidth_eq]

/-- The group that is none of the other fifteen. -/
theorem fieldOp_eq_F {w : Word} (h : ∀ k < 15, (fieldOp w).toNat ≠ k) : fieldOp w = 0xF := by
  have hlt : (fieldOp w).toNat < 16 := (fieldOp w).isLt
  have hge : ¬ (fieldOp w).toNat < 15 := fun hk => h _ hk rfl
  exact eq_ofNat_of_toNat (k := 15) (by omega)

/-- What a decoded word says of its instruction: its row's mask leaves the row's match of the word, and its own word is
the word with the ignored bits cleared (30_encoding.md R99, R101). -/
def RowOf (w : Word) (i : Instr) : Prop := w &&& tableMask i = tableMatch i ∧ encode i = w &&& ~~~(ignoredBits w)

theorem rowOf_decodeGroup0 {w : Word} {i : Instr} (hop : fieldOp w = 0x0) (h : decodeGroup0 (fieldNN w) = some i) :
    RowOf w i := by
  unfold RowOf
  unfold decodeGroup0 at h
  split_ifs at h with hE0 hEE <;> cases h
  · rw [clear_ignoredBits_of_group0 hop (.inl hE0), hop, hE0]
    exact ⟨(and_F0FF_eq_iff w 0x0 0xE0).mpr ⟨hop, hE0⟩, rfl⟩
  · rw [clear_ignoredBits_of_group0 hop (.inr hEE), hop, hEE]
    exact ⟨(and_F0FF_eq_iff w 0x0 0xEE).mpr ⟨hop, hEE⟩, rfl⟩

theorem rowOf_decodeGroup8 {w : Word} {i : Instr} (hop : fieldOp w = 0x8)
    (h : decodeGroup8 (fieldX w) (fieldY w) (fieldN w) = some i) : RowOf w i := by
  have hpack := packXYN_fields w
  have hmask := and_F00F w
  unfold RowOf
  rw [clear_ignoredBits_of_none (by rw [hop]; decide) (by rw [hop]; decide) (by rw [hop]; decide)]
  rw [hop] at hpack hmask
  unfold decodeGroup8 at h
  split at h
  case h_10 => cases h
  all_goals
    rename_i hn
    rw [eq_ofNat_of_toNat hn] at hpack hmask
    cases h
    exact ⟨hmask, hpack⟩

theorem rowOf_decodeGroupE {w : Word} {i : Instr} (hop : fieldOp w = 0xE)
    (h : decodeGroupE (fieldX w) (fieldNN w) = some i) : RowOf w i := by
  have hpack := packXNN_fields w
  have hmask := and_F0FF w
  unfold RowOf
  rw [clear_ignoredBits_of_none (by rw [hop]; decide) (by rw [hop]; decide) (by rw [hop]; decide)]
  rw [hop] at hpack hmask
  unfold decodeGroupE at h
  split_ifs at h <;> rw [‹fieldNN w = _›] at hpack hmask <;> cases h <;> exact ⟨hmask, hpack⟩

theorem rowOf_decodeGroupF {w : Word} {i : Instr} (hop : fieldOp w = 0xF)
    (h : decodeGroupF (fieldX w) (fieldNN w) = some i) : RowOf w i := by
  have hpack := packXNN_fields w
  have hmask := and_F0FF w
  unfold RowOf
  rw [clear_ignoredBits_of_none (by rw [hop]; decide) (by rw [hop]; decide) (by rw [hop]; decide)]
  rw [hop] at hpack hmask
  unfold decodeGroupF at h
  split_ifs at h <;> rw [‹fieldNN w = _›] at hpack hmask <;> cases h <;> exact ⟨hmask, hpack⟩

/-- A group that stands for one instruction without ignored bits. -/
theorem rowOf_of_group {w : Word} {i : Instr} {op : Nibble} (hop : fieldOp w = op) (hne : op ≠ 0x0 ∧ op ≠ 0x5 ∧ op ≠ 0x9)
    (hmask : tableMask i = 0xF000) (hmatch : tableMatch i = packXNN op 0 0) (henc : encode i = w) : RowOf w i := by
  subst hop
  refine ⟨?_, ?_⟩
  · rw [hmask, hmatch, and_F000_eq_iff]
  · rw [henc, clear_ignoredBits_of_none hne.1 hne.2.1 hne.2.2]

/-- The two groups whose low nibble is ignored. -/
theorem rowOf_of_regSkip {w : Word} {i : Instr} {op : Nibble} (hop : fieldOp w = op) (hskip : op = 0x5 ∨ op = 0x9)
    (hmask : tableMask i = 0xF000) (hmatch : tableMatch i = packXNN op 0 0)
    (henc : encode i = packXYN op (fieldX w) (fieldY w) 0) : RowOf w i := by
  subst hop
  refine ⟨?_, ?_⟩
  · rw [hmask, hmatch, and_F000_eq_iff]
  · rw [henc, clear_ignoredBits_of_regSkip hskip]

theorem rowOf_decodeWord {w : Word} {i : Instr} (h : decodeWord w = some i) : RowOf w i := by
  unfold decodeWord at h
  split at h
  case h_1 hop => exact rowOf_decodeGroup0 (eq_ofNat_of_toNat hop) h
  case h_9 hop => exact rowOf_decodeGroup8 (eq_ofNat_of_toNat hop) h
  case h_15 hop => exact rowOf_decodeGroupE (eq_ofNat_of_toNat hop) h
  case h_16 => exact rowOf_decodeGroupF (fieldOp_eq_F fun k hk => by interval_cases k <;> assumption) h
  case h_6 hop | h_10 hop =>
    have hop := eq_ofNat_of_toNat hop
    cases h
    exact rowOf_of_regSkip hop (by decide) rfl rfl rfl
  case h_2 hop | h_3 hop | h_11 hop | h_12 hop =>
    have hop := eq_ofNat_of_toNat hop
    have hpack := packNNN_fields w
    rw [hop] at hpack
    cases h
    exact rowOf_of_group hop (by decide) rfl rfl hpack
  case h_14 hop =>
    have hop := eq_ofNat_of_toNat hop
    have hpack := packXYN_fields w
    rw [hop] at hpack
    cases h
    exact rowOf_of_group hop (by decide) rfl rfl hpack
  all_goals
    rename_i hop
    have hop := eq_ofNat_of_toNat hop
    have hpack := packXNN_fields w
    rw [hop] at hpack
    cases h
    exact rowOf_of_group hop (by decide) rfl rfl hpack

/-- Settles O2: the decoder's groups in turn; in each the word is packed from its fields, and so is the instruction's. -/
theorem decodedWordsMatchTheirTableRow : Obligations.DecodedWordsMatchTheirTableRow := fun _ _ => rowOf_decodeWord

/-! ### The words that decode to nothing (30_encoding.md R100) -/

theorem ite_some_eq_none_iff {c : Prop} [Decidable c] {i : Instr} {o : Option Instr} :
    (if c then some i else o) = none ↔ ¬ c ∧ o = none := by
  split_ifs with h <;> simp [h]

theorem decodeGroup0_eq_none_iff (nn : Byte) : decodeGroup0 nn = none ↔ nn.toNat ≠ 0xE0 ∧ nn.toNat ≠ 0xEE := by
  simp [decodeGroup0, ite_some_eq_none_iff, ← BitVec.toNat_inj]

theorem decodeGroup8_eq_none_iff (x y : Reg) (n : Nibble) :
    decodeGroup8 x y n = none ↔ 0x8 ≤ n.toNat ∧ n.toNat ≠ 0xE := by
  unfold decodeGroup8
  split
  case h_10 => simp only [imp_false, true_iff] at *; omega
  all_goals simp [*]

theorem decodeGroupE_eq_none_iff (x : Reg) (nn : Byte) :
    decodeGroupE x nn = none ↔ nn.toNat ≠ 0x9E ∧ nn.toNat ≠ 0xA1 := by
  simp [decodeGroupE, ite_some_eq_none_iff, ← BitVec.toNat_inj]

theorem decodeGroupF_eq_none_iff (x : Reg) (nn : Byte) :
    decodeGroupF x nn = none ↔ nn.toNat ∉ [0x07, 0x0A, 0x15, 0x18, 0x1E, 0x29, 0x33, 0x55, 0x65] := by
  simp [decodeGroupF, ite_some_eq_none_iff, ← BitVec.toNat_inj]

/-- Settles O3: only four groups can answer nothing, each when its sub-select is not listed. -/
theorem unrecognizedWordsAreExactlyThoseListed : Obligations.UnrecognizedWordsAreExactlyThoseListed := by
  intro w
  rw [← toNat_fieldOp, ← toNat_fieldNN, ← toNat_fieldN]
  unfold decodeWord
  split
  case h_1 hop => rw [decodeGroup0_eq_none_iff, hop]; simp
  case h_9 hop => rw [decodeGroup8_eq_none_iff, hop]; simp
  case h_15 hop => rw [decodeGroupE_eq_none_iff, hop]; simp
  case h_16 =>
    have hop : fieldOp w = 0xF := fieldOp_eq_F fun k hk => by interval_cases k <;> assumption
    rw [decodeGroupF_eq_none_iff, hop]; simp
  all_goals
    rename_i hop
    rw [hop]; simp

end Sys2Proof
end

section
/-! The words of the remaining rows of 30_encoding.md R101: each is recognised by its row's mask and match. -/

namespace Sys2Proof

/-- A row is recognised by its mask and match when every word that carries the match decodes to it; the converse is the
row's own match (30_encoding.md R101). -/
theorem recognises_of_row {mask pattern : Word} {build : Word → Instr} (hmask : ∀ w, tableMask (build w) = mask)
    (hmatch : ∀ w, tableMatch (build w) = pattern)
    (hdecode : ∀ w, w &&& mask = pattern → decodeWord w = some (build w)) : Machine.Recognises mask pattern build := by
  refine fun w => ⟨fun h => ?_, hdecode w⟩
  have hrow := (rowOf_decodeWord h).1
  rwa [hmask, hmatch] at hrow

theorem decodeWord_of_group0 {w : Word} {nn : Byte} {i : Instr} (h : w &&& 0xF0FF = packXNN 0x0 0 nn)
    (hdecode : decodeGroup0 nn = some i) : decodeWord w = some i := by
  obtain ⟨hop, rfl⟩ := (and_F0FF_eq_iff w 0x0 nn).mp h
  unfold decodeWord; rw [hop]; exact hdecode

theorem decodeWord_of_group8 {w : Word} {n : Nibble} {i : Instr} (h : w &&& 0xF00F = packXYN 0x8 0 0 n)
    (hdecode : decodeGroup8 (fieldX w) (fieldY w) n = some i) : decodeWord w = some i := by
  obtain ⟨hop, rfl⟩ := (and_F00F_eq_iff w 0x8 n).mp h
  unfold decodeWord; rw [hop]; exact hdecode

theorem decodeWord_of_groupE {w : Word} {nn : Byte} {i : Instr} (h : w &&& 0xF0FF = packXNN 0xE 0 nn)
    (hdecode : decodeGroupE (fieldX w) nn = some i) : decodeWord w = some i := by
  obtain ⟨hop, rfl⟩ := (and_F0FF_eq_iff w 0xE nn).mp h
  unfold decodeWord; rw [hop]; exact hdecode

end Sys2Proof

namespace Sys2Proof.Machine

/-! ### Group `0x0` -/

theorem recognises_cls : Recognises 0xF0FF 0x00E0 (fun _ => .cls) :=
  recognises_of_row (fun _ => rfl) (fun _ => rfl) fun _ h => decodeWord_of_group0 (nn := 0xE0) h rfl

theorem recognises_ret : Recognises 0xF0FF 0x00EE (fun _ => .ret) :=
  recognises_of_row (fun _ => rfl) (fun _ => rfl) fun _ h => decodeWord_of_group0 (nn := 0xEE) h rfl

/-! ### Groups of one instruction -/

theorem recognises_call : Recognises 0xF000 0x2000 (fun w => .call (fieldNNN w)) :=
  recognises_of_group (op := 0x2) (fun w => fieldOp_packNNN 0x2 (fieldNNN w))
    (fun w h => by unfold decodeWord; rw [h]; rfl)

theorem recognises_seImm : Recognises 0xF000 0x3000 (fun w => .seImm (fieldX w) (fieldNN w)) :=
  recognises_of_group (op := 0x3) (fun w => fieldOp_packXNN 0x3 (fieldX w) (fieldNN w))
    (fun w h => by unfold decodeWord; rw [h]; rfl)

theorem recognises_sneImm : Recognises 0xF000 0x4000 (fun w => .sneImm (fieldX w) (fieldNN w)) :=
  recognises_of_group (op := 0x4) (fun w => fieldOp_packXNN 0x4 (fieldX w) (fieldNN w))
    (fun w h => by unfold decodeWord; rw [h]; rfl)

theorem recognises_seReg : Recognises 0xF000 0x5000 (fun w => .seReg (fieldX w) (fieldY w)) :=
  recognises_of_group (op := 0x5) (fun w => fieldOp_packXYN 0x5 (fieldX w) (fieldY w) 0x0)
    (fun w h => by unfold decodeWord; rw [h]; rfl)

theorem recognises_sneReg : Recognises 0xF000 0x9000 (fun w => .sneReg (fieldX w) (fieldY w)) :=
  recognises_of_group (op := 0x9) (fun w => fieldOp_packXYN 0x9 (fieldX w) (fieldY w) 0x0)
    (fun w h => by unfold decodeWord; rw [h]; rfl)

theorem recognises_rnd : Recognises 0xF000 0xC000 (fun w => .rnd (fieldX w) (fieldNN w)) :=
  recognises_of_group (op := 0xC) (fun w => fieldOp_packXNN 0xC (fieldX w) (fieldNN w))
    (fun w h => by unfold decodeWord; rw [h]; rfl)

theorem recognises_drw : Recognises 0xF000 0xD000 (fun w => .drw (fieldX w) (fieldY w) (fieldN w)) :=
  recognises_of_group (op := 0xD) (fun w => fieldOp_packXYN 0xD (fieldX w) (fieldY w) (fieldN w))
    (fun w h => by unfold decodeWord; rw [h]; rfl)

/-! ### Group `0x8` -/

theorem recognises_ldReg : Recognises 0xF00F 0x8000 (fun w => .ldReg (fieldX w) (fieldY w)) :=
  recognises_of_row (fun _ => rfl) (fun _ => rfl) fun _ h => decodeWord_of_group8 (n := 0x0) h rfl

theorem recognises_orReg : Recognises 0xF00F 0x8001 (fun w => .orReg (fieldX w) (fieldY w)) :=
  recognises_of_row (fun _ => rfl) (fun _ => rfl) fun _ h => decodeWord_of_group8 (n := 0x1) h rfl

theorem recognises_andReg : Recognises 0xF00F 0x8002 (fun w => .andReg (fieldX w) (fieldY w)) :=
  recognises_of_row (fun _ => rfl) (fun _ => rfl) fun _ h => decodeWord_of_group8 (n := 0x2) h rfl

theorem recognises_xorReg : Recognises 0xF00F 0x8003 (fun w => .xorReg (fieldX w) (fieldY w)) :=
  recognises_of_row (fun _ => rfl) (fun _ => rfl) fun _ h => decodeWord_of_group8 (n := 0x3) h rfl

theorem recognises_addReg : Recognises 0xF00F 0x8004 (fun w => .addReg (fieldX w) (fieldY w)) :=
  recognises_of_row (fun _ => rfl) (fun _ => rfl) fun _ h => decodeWord_of_group8 (n := 0x4) h rfl

theorem recognises_subReg : Recognises 0xF00F 0x8005 (fun w => .subReg (fieldX w) (fieldY w)) :=
  recognises_of_row (fun _ => rfl) (fun _ => rfl) fun _ h => decodeWord_of_group8 (n := 0x5) h rfl

theorem recognises_shr : Recognises 0xF00F 0x8006 (fun w => .shr (fieldX w) (fieldY w)) :=
  recognises_of_row (fun _ => rfl) (fun _ => rfl) fun _ h => decodeWord_of_group8 (n := 0x6) h rfl

theorem recognises_subnReg : Recognises 0xF00F 0x8007 (fun w => .subnReg (fieldX w) (fieldY w)) :=
  recognises_of_row (fun _ => rfl) (fun _ => rfl) fun _ h => decodeWord_of_group8 (n := 0x7) h rfl

theorem recognises_shl : Recognises 0xF00F 0x800E (fun w => .shl (fieldX w) (fieldY w)) :=
  recognises_of_row (fun _ => rfl) (fun _ => rfl) fun _ h => decodeWord_of_group8 (n := 0xE) h rfl

/-! ### Groups `0xE` and `0xF` -/

theorem recognises_skp : Recognises 0xF0FF 0xE09E (fun w => .skp (fieldX w)) :=
  recognises_of_row (fun _ => rfl) (fun _ => rfl) fun _ h => decodeWord_of_groupE (nn := 0x9E) h rfl

theorem recognises_sknp : Recognises 0xF0FF 0xE0A1 (fun w => .sknp (fieldX w)) :=
  recognises_of_row (fun _ => rfl) (fun _ => rfl) fun _ h => decodeWord_of_groupE (nn := 0xA1) h rfl

theorem recognises_ldVxDT : Recognises 0xF0FF 0xF007 (fun w => .ldVxDT (fieldX w)) :=
  recognises_of_groupF (nn := 0x07) fun _ => rfl

theorem recognises_ldVxK : Recognises 0xF0FF 0xF00A (fun w => .ldVxK (fieldX w)) :=
  recognises_of_groupF (nn := 0x0A) fun _ => rfl

theorem recognises_addI : Recognises 0xF0FF 0xF01E (fun w => .addI (fieldX w)) :=
  recognises_of_groupF (nn := 0x1E) fun _ => rfl

theorem recognises_stRegs : Recognises 0xF0FF 0xF055 (fun w => .stRegs (fieldX w)) :=
  recognises_of_groupF (nn := 0x55) fun _ => rfl

theorem recognises_ldRegs : Recognises 0xF0FF 0xF065 (fun w => .ldRegs (fieldX w)) :=
  recognises_of_groupF (nn := 0x65) fun _ => rfl

end Sys2Proof.Machine
end

section
/-! What each remaining instruction answers, and the parts of the state it may change (10_state.md R20). -/

namespace Sys2Proof.Machine

/-! ### The meanings -/

@[simp] theorem exec_cls (s : State) : exec .cls s = .next (s.clearPixels.writeDirty true) := rfl

@[simp] theorem exec_ret (s : State) : exec .ret s = .next (s.pop.2.writePC s.pop.1) := rfl

@[simp] theorem exec_call (nnn : Addr) (s : State) :
    exec (.call nnn) s = .next ((s.push s.PC).writePC (zextAddr nnn)) := rfl

@[simp] theorem exec_seImm (x : Reg) (nn : Byte) (s : State) :
    exec (.seImm x nn) s = .next (s.skipIf (s.readV x == nn)) := rfl

@[simp] theorem exec_sneImm (x : Reg) (nn : Byte) (s : State) :
    exec (.sneImm x nn) s = .next (s.skipIf (s.readV x != nn)) := rfl

@[simp] theorem exec_seReg (x y : Reg) (s : State) :
    exec (.seReg x y) s = .next (s.skipIf (s.readV x == s.readV y)) := rfl

@[simp] theorem exec_sneReg (x y : Reg) (s : State) :
    exec (.sneReg x y) s = .next (s.skipIf (s.readV x != s.readV y)) := rfl

@[simp] theorem exec_ldReg (x y : Reg) (s : State) : exec (.ldReg x y) s = .next (s.writeV x (s.readV y)) := rfl

@[simp] theorem exec_orReg (x y : Reg) (s : State) :
    exec (.orReg x y) s = .next (s.writeV x (s.readV x ||| s.readV y)) := rfl

@[simp] theorem exec_andReg (x y : Reg) (s : State) :
    exec (.andReg x y) s = .next (s.writeV x (s.readV x &&& s.readV y)) := rfl

@[simp] theorem exec_xorReg (x y : Reg) (s : State) :
    exec (.xorReg x y) s = .next (s.writeV x (s.readV x ^^^ s.readV y)) := rfl

@[simp] theorem exec_addReg (x y : Reg) (s : State) : exec (.addReg x y) s =
    .next (s.writeResultThenFlag x (s.readV x + s.readV y) (carryOut (s.readV x) (s.readV y))) := rfl

@[simp] theorem exec_subReg (x y : Reg) (s : State) : exec (.subReg x y) s =
    .next (s.writeResultThenFlag x (s.readV x - s.readV y) (noBorrow (s.readV x) (s.readV y))) := rfl

@[simp] theorem exec_shr (x y : Reg) (s : State) : exec (.shr x y) s =
    .next (s.writeResultThenFlag x (s.readV x >>> 1) (lowBit (s.readV x))) := rfl

@[simp] theorem exec_subnReg (x y : Reg) (s : State) : exec (.subnReg x y) s =
    .next (s.writeResultThenFlag x (s.readV y - s.readV x) (noBorrow (s.readV y) (s.readV x))) := rfl

@[simp] theorem exec_shl (x y : Reg) (s : State) : exec (.shl x y) s =
    .next (s.writeResultThenFlag x (s.readV x <<< 1) (highBit (s.readV x))) := rfl

@[simp] theorem exec_rnd (x : Reg) (nn : Byte) (s : State) :
    exec (.rnd x nn) s = .next (s.dropRnd.writeV x (s.nextRnd &&& nn)) := rfl

@[simp] theorem exec_drw (x y : Reg) (n : Nibble) (s : State) : exec (.drw x y n) s =
    .next (((s.writeV 15 0x00).drawRows (s.spriteColumn (s.readV x)) (s.spriteRow (s.readV y)) n.toNat).writeDirty
      true) := rfl

@[simp] theorem exec_skp (x : Reg) (s : State) : exec (.skp x) s = .next (s.skipIf (s.keyIsDown (s.readV x))) := rfl

@[simp] theorem exec_sknp (x : Reg) (s : State) : exec (.sknp x) s = .next (s.skipIf (!s.keyIsDown (s.readV x))) := rfl

@[simp] theorem exec_ldVxDT (x : Reg) (s : State) : exec (.ldVxDT x) s = .next (s.writeV x s.DT) := rfl

@[simp] theorem exec_ldVxK (x : Reg) (s : State) : exec (.ldVxK x) s = .next (s.writeWAIT (some x)) := rfl

@[simp] theorem exec_addI (x : Reg) (s : State) :
    exec (.addI x) s = .next (s.writeI (s.I + zextByte (s.readV x))) := rfl

@[simp] theorem exec_stRegs (x : Reg) (s : State) :
    exec (.stRegs x) s = .next ((regRange x).foldl State.storeReg s) := rfl

@[simp] theorem exec_ldRegs (x : Reg) (s : State) :
    exec (.ldRegs x) s = .next ((regRange x).foldl State.loadReg s) := rfl

/-! ### Frames -/

/-- One change after another, both within `c`. -/
theorem FrameBut.comp {a b c : List Piece} {s t u : State} (h : FrameBut a s t) (k : FrameBut b t u)
    (ha : ∀ p ∈ a, p ∈ c) (hb : ∀ p ∈ b, p ∈ c) : FrameBut c s u := (h.mono ha).trans (k.mono hb)

/-- A part listed as changed that reads the same need not be listed. -/
theorem FrameBut.drop {p : Piece} {c : List Piece} {s t : State} (h : FrameBut (p :: c) s t) (hp : Piece.Same s t p) :
    FrameBut c s t := fun q hq => if e : q = p then e ▸ hp else h q (by simp [e, hq])

theorem State.frame_writeResultThenFlag (s : State) (x : Reg) (result : Byte) (flag : Bool) :
    FrameBut [.V] s (s.writeResultThenFlag x result flag) := (s.frame_writeV x result).trans (State.frame_writeV _ _ _)

/-- Each instruction answers a next state, and changes what its row of 10_state.md R20 lists. -/
theorem exec_answers_within_frame (i : Instr) (s : State) : ∃ t, exec i s = .next t ∧ FrameBut (writesOf i) s t := by
  cases i with
  | cls => exact ⟨_, exec_cls s, s.frame_clearPixels.comp (State.frame_writeDirty _ _) (by decide) (by decide)⟩
  | ret => exact ⟨_, exec_ret s, s.frame_pop.comp (State.frame_writePC _ _) (by decide) (by decide)⟩
  | jp nnn => exact ⟨_, exec_jp nnn s, s.frame_writePC _⟩
  | call nnn => exact ⟨_, exec_call nnn s, (s.frame_push _).comp (c := [.PC, .SP, .stack]) (State.frame_writePC _ _)
    (by decide) (by decide)⟩
  | jpV0 nnn => exact ⟨_, exec_jpV0 nnn s, s.frame_writePC _⟩
  | seImm | sneImm | seReg | sneReg | skp | sknp => exact ⟨_, rfl, s.frame_skipIf _⟩
  | ldImm | addImm | ldReg | orReg | andReg | xorReg | ldVxDT => exact ⟨_, rfl, s.frame_writeV _ _⟩
  | addReg | subReg | shr | subnReg | shl => exact ⟨_, rfl, s.frame_writeResultThenFlag _ _ _⟩
  | ldI | addI | ldF => exact ⟨_, rfl, s.frame_writeI _⟩
  | rnd x nn => exact ⟨_, exec_rnd x nn s, s.frame_dropRnd.comp (c := [.V, .rnd]) (State.frame_writeV _ _ _)
    (by decide) (by decide)⟩
  | drw x y n =>
    have hdraw (x0 y0 : Nat) : FrameBut [.V, .fb] s ((s.writeV 15 0x00).drawRows x0 y0 n.toNat) :=
      (s.frame_writeV 15 0x00).comp (State.frame_drawRows x0 y0 _ _) (by decide) (by decide)
    exact ⟨_, exec_drw x y n s, (hdraw _ _).comp (c := [.V, .fb, .dirty]) (State.frame_writeDirty _ _)
      (by decide) (by decide)⟩
  | ldVxK x => exact ⟨_, exec_ldVxK x s, s.frame_writeWAIT _⟩
  | ldDTVx x => exact ⟨_, exec_ldDTVx x s, s.frame_writeDT _⟩
  | ldSTVx x => exact ⟨_, exec_ldSTVx x s, s.frame_writeST _⟩
  | ldB x => exact ⟨_, exec_ldB x s, s.frame_writeBytes _ _⟩
  | stRegs x => exact ⟨_, exec_stRegs x s, State.frame_storeRegs _ s⟩
  | ldRegs x => exact ⟨_, exec_ldRegs x s, State.frame_loadRegs _ s⟩

theorem exec_frame {i : Instr} {s t : State} (h : exec i s = .next t) : FrameBut (writesOf i) s t := by
  obtain ⟨u, hu, hf⟩ := exec_answers_within_frame i s
  cases hu.symm.trans h
  exact hf

/-- Settles O54: one frame an instruction, composed of the frames of the updates it makes. -/
theorem everyInstructionCompletesWithinItsFrame : Obligations.EveryInstructionCompletesWithinItsFrame :=
  exec_answers_within_frame

end Sys2Proof.Machine
end

section
/-! What each event of 60_exceptions.md R227 may change, and what of a step follows from that alone. -/

namespace Sys2Proof.Machine

/-- The parts that an event may change, besides the agenda it is taken off (10_state.md sections 1 and 10). -/
def eventWrites (e : HostEvent) : List Piece :=
  match e with
  | .step => [.mem, .V, .I, .PC, .stack, .SP, .DT, .ST, .fb, .WAIT, .dirty, .diags, .phase, .rnd]
  | .reset => [.phase, .PC, .mem, .V, .I, .SP, .stack, .DT, .ST, .fb, .WAIT]
  | .load _ => [.mem, .phase]
  | .tick => [.DT, .ST]
  | .keyDown _ => [.keys, .V, .WAIT]
  | .keyUp _ => [.keys]
  | .quit => [.phase]

theorem writesOf_subset_step (i : Instr) : ∀ p ∈ writesOf i, p ∈ eventWrites .step := by
  cases i <;> simp [writesOf, eventWrites]

/-! ### Frames of the events -/

theorem State.frame_takeEvent (s : State) : FrameBut [.agenda] s s.takeEvent := by
  intro p hp; cases p <;> simp_all [Piece.Same]

theorem State.frame_advance (s : State) : FrameBut [.PC, .dirty, .phase] s s.advance := by
  intro p hp; cases p <;> simp_all [Piece.Same]

theorem State.frame_setKey (s : State) (k : Key) (b : Bool) : FrameBut [.keys] s (s.setKey k b) := by
  intro p hp; cases p <;> simp_all [Piece.Same]

theorem State.frame_quit (s : State) : FrameBut [.phase] s s.quit := by
  intro p hp; cases p <;> simp_all [Piece.Same]

theorem frame_of_phase (s : State) (ph : Phase) : FrameBut [.phase] s { s with phase := ph } := by
  intro p hp; cases p <;> simp_all [Piece.Same, State.readByte, State.readV, State.readStack, State.pixel]

theorem State.frame_loadImage (s : State) (image : List Byte) : FrameBut [.mem, .phase] s (s.loadImage image) :=
  (s.frame_writeBytes _ _).comp (frame_of_phase _ .loaded) (by decide) (by decide)

theorem State.frame_resetEvent (s : State) : FrameBut (eventWrites .reset) s s.resetEvent := by
  intro p hp; cases p <;> simp_all [Piece.Same, eventWrites, State.resetEvent]

/-! ### What each event does -/

/-- The reset state reads as the build's font in its place and the reset fill elsewhere (70_reset_and_hazards.md R240). -/
theorem State.resetEvent_readByte (s : State) (a : Nat) :
    s.resetEvent.readByte a = unlisted s.config.fontTable (wrapAddr a) := rfl

theorem State.resetEvent_readV (s : State) (r : Reg) : s.resetEvent.readV r = 0x00 := by
  simp [State.resetEvent, State.reset, State.readV, Vector.get_eq_getElem]

theorem State.resetEvent_readStack (s : State) (k : Nibble) : s.resetEvent.readStack k = 0x0000 := by
  simp [State.resetEvent, State.reset, State.readStack, Vector.get_eq_getElem]

theorem State.resetEvent_pixel (s : State) (px py : Nat) : s.resetEvent.pixel px py = false := by
  simp [State.resetEvent, State.reset, State.pixel]

/-- A tick is a write of each timer, or, in a wait where it does not count, nothing (60_exceptions.md R219). -/
theorem State.tick_eq (s : State) : s.tick = if s.WAIT.isSome && !s.config.tickDuringWait then s else
    (s.writeDT (countDown s.DT)).writeST (countDown s.ST) := rfl

theorem execWord_of_some {w : Word} {i : Instr} (h : decodeWord w = some i) (a : Word) (s : State) :
    execWord w a s = exec i s := by
  unfold execWord; rw [h]

theorem execWord_of_none {w : Word} (h : decodeWord w = none) (a : Word) (s : State) :
    execWord w a s = .next (s.raiseUnrecognized w a) := by
  unfold execWord; rw [h]

theorem performStep_of_waiting {s : State} {r : Reg} (h : s.WAIT = some r) :
    performStep s = .next (s.writeDirty false) := by
  unfold performStep; rw [h]

theorem performStep_of_not_waiting {s : State} (h : s.WAIT = none) :
    performStep s = execWord s.fetchWord s.PC s.advance := by
  unfold performStep; rw [h]

theorem performStep_frame {s t : State} (h : performStep s = .next t) : FrameBut (eventWrites .step) s t := by
  rcases performStep_cases h with ⟨-, rfl⟩ | ⟨-, i, -, hx⟩ | ⟨-, -, rfl⟩
  · exact (s.frame_writeDirty false).mono (by decide)
  · exact s.frame_advance.comp (exec_frame hx) (by decide) (writesOf_subset_step i)
  · exact s.frame_advance.comp (State.frame_raiseUnrecognized _ _ _) (by decide) (by decide)

theorem applyEvent_frame {e : HostEvent} {s t : State} (h : applyEvent e s = .next t) : FrameBut (eventWrites e) s t := by
  rcases applyEvent_cases h with ⟨rfl, h⟩ | ⟨rfl, rfl⟩ | ⟨k, rfl, rfl⟩ | ⟨k, rfl, rfl⟩ | ⟨rfl, rfl⟩ | ⟨im, rfl, -, rfl⟩ |
    ⟨rfl, rfl⟩
  · exact performStep_frame h
  · exact s.frame_tick
  · exact s.frame_keyDown k
  · exact s.frame_keyUp k
  · exact s.frame_resetEvent
  · exact s.frame_loadImage im
  · exact s.frame_quit

/-- A step changes the agenda and what its event writes, and nothing once the run is ended. -/
theorem step_frame {s t : State} (h : step s = .next t) : FrameBut (.agenda :: eventWrites s.nextEvent) s t := by
  rcases step_cases h with ⟨-, rfl⟩ | ⟨-, h⟩
  · exact FrameBut.refl _ _
  · exact s.frame_takeEvent.comp (applyEvent_frame h) (by simp) (by simp +contextual)

/-! ### What no step, and what no event but a `Step` or a `Reset`, can change -/

theorem config_not_mem_eventWrites (e : HostEvent) : Piece.config ∉ Piece.agenda :: eventWrites e := by
  cases e <;> simp [eventWrites]

/-- Settles O55: no event writes the configuration; the values after reset are evaluated. -/
theorem noStepChangesTheConfiguration : Obligations.NoStepChangesTheConfiguration :=
  ⟨fun _ _ h => step_frame h .config (config_not_mem_eventWrites _), rfl, rfl, rfl, rfl, rfl, rfl, rfl⟩

theorem eventWrites_subset_of_not_step_reset {e : HostEvent} (hstep : e ≠ .step) (hreset : e ≠ .reset) :
    ∀ p ∈ Piece.agenda :: eventWrites e, p ∈ [Piece.mem, .V, .DT, .ST, .WAIT, .keys, .phase, .agenda] := by
  cases e <;> simp_all [eventWrites]

theorem eventWrites_subset_of_not_load {e : HostEvent} (hstep : e ≠ .step) (hreset : e ≠ .reset)
    (hload : ∀ image, e ≠ .load image) :
    ∀ p ∈ Piece.agenda :: eventWrites e, p ∈ [Piece.V, .DT, .ST, .WAIT, .keys, .phase, .agenda] := by
  cases e <;> simp_all [eventWrites]

/-- Settles O58: the parts that the five other events write are compared with the list. -/
theorem onlyStepAndResetChangeTheCore : Obligations.OnlyStepAndResetChangeTheCore := fun _ _ h hstep hreset =>
  ⟨(step_frame h).mono (eventWrites_subset_of_not_step_reset hstep hreset),
    fun hload => (step_frame h).mono (eventWrites_subset_of_not_load hstep hreset hload)⟩

/-! ### Which step is refused -/

theorem applyEvent_load_of_reset {s : State} (image : List Byte) (h : s.phase = .reset) :
    applyEvent (.load image) s = .next (s.loadImage image) := if_pos h

theorem applyEvent_load_refused {s : State} (image : List Byte) (h : s.phase ≠ .reset) :
    applyEvent (.load image) s = .refused .loadNotAdmitted := if_neg h

/-- Every event but a `Load` answers a next state. -/
theorem applyEvent_answers {e : HostEvent} (s : State) (h : ∀ image, e ≠ .load image) : ∃ t, applyEvent e s = .next t := by
  cases e with
  | step => exact performStep_answers s
  | load image => exact absurd rfl (h image)
  | reset | tick | keyDown | keyUp | quit => exact ⟨_, rfl⟩

theorem step_of_ended {s : State} (h : s.phase = .ended) : step s = .next s := if_pos h

theorem step_load_of_reset {s : State} {image : List Byte} (he : s.nextEvent = .load image) (h : s.phase = .reset) :
    step s = .next (s.takeEvent.loadImage image) := by
  rw [step_of_running (by rw [h]; decide), he]
  exact applyEvent_load_of_reset image h

theorem step_load_refused {s : State} {image : List Byte} (he : s.nextEvent = .load image)
    (h : s.phase = .loaded ∨ s.phase = .running) : step s = .refused .loadNotAdmitted := by
  rw [step_of_running (by rcases h with h | h <;> rw [h] <;> decide), he]
  exact applyEvent_load_refused image (show s.phase ≠ .reset by rcases h with h | h <;> rw [h] <;> decide)

theorem step_answers_of_not_load {s : State} (h : ∀ image, s.nextEvent ≠ .load image) : ∃ t, step s = .next t := by
  by_cases hp : s.phase = .ended
  · exact ⟨s, step_of_ended hp⟩
  · rw [step_of_running hp]
    exact applyEvent_answers _ h

/-- Settles O56: by the phase, for the one event that can be refused. -/
theorem onlyALateLoadIsEverRefused : Obligations.OnlyALateLoadIsEverRefused := by
  refine fun s => ⟨fun ⟨⟨image, he⟩, hp⟩ => step_load_refused he hp, fun h => ?_⟩
  by_cases hload : ∃ image, s.nextEvent = .load image
  · obtain ⟨image, he⟩ := hload
    have hp : ¬ (s.phase = .loaded ∨ s.phase = .running) := fun hp => h ⟨⟨image, he⟩, hp⟩
    cases hph : s.phase with
    | reset => exact ⟨_, step_load_of_reset he hph⟩
    | loaded => exact absurd (.inl hph) hp
    | running => exact absurd (.inr hph) hp
    | ended => exact ⟨s, step_of_ended hph⟩
  · exact step_answers_of_not_load fun image he => hload ⟨image, he⟩

end Sys2Proof.Machine
end

section
/-! The proof about 10_state.md section 8: bits 15:12 of `PC`, of `I` and of the stack entries cannot be observed. The
relation is taken part by part, so that an instruction or an event has to be followed only in the parts it writes. -/

namespace Sys2Proof.Machine

/-- One part of two states that differ at most above bit 11 of `PC`, `I` and the stack entries (10_state.md R30). -/
def Piece.Below12 (s t : State) (p : Piece) : Prop :=
  match p with
  | .PC => t.PC.toNat % 4096 = s.PC.toNat % 4096
  | .I => t.I.toNat % 4096 = s.I.toNat % 4096
  | .stack => ∀ k, (t.readStack k).toNat % 4096 = (s.readStack k).toNat % 4096
  | p => Piece.Same s t p

/-- Outside the three parts with unobservable bits, alike is the same. -/
theorem Piece.below12_iff_same {s t : State} {p : Piece} (hp : p ∉ [Piece.PC, .I, .stack]) :
    Piece.Below12 s t p ↔ Piece.Same s t p := by
  cases p <;> simp_all [Piece.Below12]

theorem sameBelow12_iff {s t : State} : SameBelow12 s t ↔ ∀ p, Piece.Below12 s t p := by
  constructor
  · rintro ⟨hPC, hI, hstack, hframe⟩ p
    by_cases hp : p ∈ [Piece.PC, .I, .stack]
    · simp only [List.mem_cons, List.not_mem_nil, or_false] at hp
      rcases hp with rfl | rfl | rfl
      exacts [hPC, hI, hstack]
    · exact (Piece.below12_iff_same hp).mpr (hframe p hp)
  · exact fun h => ⟨h .PC, h .I, h .stack, fun p hp => (Piece.below12_iff_same hp).mp (h p)⟩

/-- A part that neither of two states changes stays as alike as it was. -/
theorem Piece.Below12.of_same {s t s' t' : State} {p : Piece} (h : Piece.Below12 s t p) (hs : Piece.Same s s' p)
    (ht : Piece.Same t t' p) : Piece.Below12 s' t' p := by
  cases p <;> simp only [Piece.Below12, Piece.Same] at * <;> simp [hs, ht, h]

/-- Two changes within one frame keep two states alike when what they write is alike. -/
theorem SameBelow12.of_frame {s t s' t' : State} {c : List Piece} (h : SameBelow12 s t) (hs : FrameBut c s s')
    (ht : FrameBut c t t') (hc : ∀ p ∈ c, Piece.Below12 s' t' p) : SameBelow12 s' t' := by
  refine sameBelow12_iff.mpr fun p => ?_
  by_cases hp : p ∈ c
  · exact hc p hp
  · exact (sameBelow12_iff.mp h p).of_same (hs p hp) (ht p hp)

/-! ### What is read alike -/

section
variable {s t : State} (h : SameBelow12 s t)
include h

theorem SameBelow12.config : t.config = s.config := sameBelow12_iff.mp h .config

theorem SameBelow12.readV (r : Reg) : t.readV r = s.readV r := sameBelow12_iff.mp h .V r

theorem SameBelow12.DT : t.DT = s.DT := sameBelow12_iff.mp h .DT

theorem SameBelow12.ST : t.ST = s.ST := sameBelow12_iff.mp h .ST

theorem SameBelow12.SP : t.SP = s.SP := sameBelow12_iff.mp h .SP

theorem SameBelow12.WAIT : t.WAIT = s.WAIT := sameBelow12_iff.mp h .WAIT

theorem SameBelow12.diags : t.diags = s.diags := sameBelow12_iff.mp h .diags

theorem SameBelow12.phase : t.phase = s.phase := sameBelow12_iff.mp h .phase

theorem SameBelow12.agenda : t.agenda = s.agenda := sameBelow12_iff.mp h .agenda

theorem SameBelow12.pixel (px py : Nat) : t.pixel px py = s.pixel px py := sameBelow12_iff.mp h .fb px py

theorem SameBelow12.keys (k : Key) : t.keys.get k = s.keys.get k := sameBelow12_iff.mp h .keys k

theorem SameBelow12.rndAnswers : t.rndAnswers = s.rndAnswers := (sameBelow12_iff.mp h .rnd).1

theorem SameBelow12.rndDraws : t.rndDraws = s.rndDraws := (sameBelow12_iff.mp h .rnd).2

/-- Addresses that agree modulo 4096 name the same byte in both states (20_memory.md R61). -/
theorem SameBelow12.readByte {a b : Nat} (hab : wrapAddr b = wrapAddr a) : t.readByte b = s.readByte a :=
  (t.readByte_congr hab).trans (sameBelow12_iff.mp h .mem a)

theorem SameBelow12.wrapAddr_indexed (k : Nat) : wrapAddr (t.indexed k) = wrapAddr (s.indexed k) := by
  obtain ⟨-, hI, -⟩ := h
  simp only [wrapAddr, State.indexed, Config.memSize]
  omega

theorem SameBelow12.fetchWord : t.fetchWord = s.fetchWord := by
  obtain ⟨hPC, -⟩ := id h
  have hlow : t.readByte t.PC.toNat = s.readByte s.PC.toNat := h.readByte hPC
  have hhigh : t.readByte (t.PC.toNat + 1) = s.readByte (s.PC.toNat + 1) :=
    h.readByte (show _ % 4096 = _ % 4096 by omega)
  simp only [State.fetchWord, State.readWord, hlow, hhigh]

theorem SameBelow12.nextPC : (nextPC t.PC).toNat % 4096 = (nextPC s.PC).toNat % 4096 := by
  obtain ⟨hPC, -⟩ := h
  simp only [Sys2Proof.Machine.nextPC, BitVec.toNat_add, BitVec.toNat_ofNat]
  omega

theorem SameBelow12.keyIsDown (v : Byte) : t.keyIsDown v = s.keyIsDown v := h.keys _

theorem SameBelow12.nextRnd : t.nextRnd = s.nextRnd := by
  simp only [State.nextRnd, h.rndAnswers, h.rndDraws]

theorem SameBelow12.spriteColumn (v : Byte) : t.spriteColumn v = s.spriteColumn v := by
  simp only [State.spriteColumn, h.config]

theorem SameBelow12.spriteRow (v : Byte) : t.spriteRow v = s.spriteRow v := by
  simp only [State.spriteRow, h.config]

/-! ### Updates of both states alike -/

theorem SameBelow12.writeV (r : Reg) (v : Byte) : SameBelow12 (s.writeV r v) (t.writeV r v) :=
  h.of_frame (s.frame_writeV r v) (t.frame_writeV r v) (by simp [Piece.Below12, Piece.Same, h.readV])

theorem SameBelow12.writeResultThenFlag (x : Reg) (result : Byte) (flag : Bool) :
    SameBelow12 (s.writeResultThenFlag x result flag) (t.writeResultThenFlag x result flag) :=
  (h.writeV x result).writeV regVF (flagByte flag)

theorem SameBelow12.writeDT (v : Byte) : SameBelow12 (s.writeDT v) (t.writeDT v) :=
  h.of_frame (s.frame_writeDT v) (t.frame_writeDT v) (by simp [Piece.Below12, Piece.Same])

theorem SameBelow12.writeST (v : Byte) : SameBelow12 (s.writeST v) (t.writeST v) :=
  h.of_frame (s.frame_writeST v) (t.frame_writeST v) (by simp [Piece.Below12, Piece.Same])

theorem SameBelow12.writeDirty (d : Bool) : SameBelow12 (s.writeDirty d) (t.writeDirty d) :=
  h.of_frame (s.frame_writeDirty d) (t.frame_writeDirty d) (by simp [Piece.Below12, Piece.Same])

theorem SameBelow12.writeWAIT (w : Option Reg) : SameBelow12 (s.writeWAIT w) (t.writeWAIT w) :=
  h.of_frame (s.frame_writeWAIT w) (t.frame_writeWAIT w) (by simp [Piece.Below12, Piece.Same])

theorem SameBelow12.writePC {v w : Word} (hvw : w.toNat % 4096 = v.toNat % 4096) :
    SameBelow12 (s.writePC v) (t.writePC w) :=
  h.of_frame (s.frame_writePC v) (t.frame_writePC w) (by simp [Piece.Below12, hvw])

theorem SameBelow12.writeI {v w : Word} (hvw : w.toNat % 4096 = v.toNat % 4096) :
    SameBelow12 (s.writeI v) (t.writeI w) := by
  have hI : (t.writeI w).I.toNat % 4096 = (s.writeI v).I.toNat % 4096 := by rw [t.writeI_low, s.writeI_low, hvw]
  refine h.of_frame (s.frame_writeI v) (t.frame_writeI w) ?_
  rw [List.forall_mem_singleton]
  exact hI

theorem SameBelow12.skipIf (b : Bool) : SameBelow12 (s.skipIf b) (t.skipIf b) := by
  cases b with
  | false => exact h
  | true => exact h.writePC h.nextPC

theorem SameBelow12.writeByte {a b : Nat} (hab : wrapAddr b = wrapAddr a) (v : Byte) :
    SameBelow12 (s.writeByte a v) (t.writeByte b v) := by
  refine h.of_frame (s.frame_writeBytes a [v]) (t.frame_writeBytes b [v]) ?_
  rw [List.forall_mem_singleton]
  intro c
  show (t.writeByte b v).readByte c = (s.writeByte a v).readByte c
  rw [State.readByte_writeByte, State.readByte_writeByte, hab, h.readByte rfl]

theorem SameBelow12.push {v w : Word} (hvw : w.toNat % 4096 = v.toNat % 4096) : SameBelow12 (s.push v) (t.push w) := by
  obtain ⟨-, -, hstack, -⟩ := id h
  refine h.of_frame (s.frame_push v) (t.frame_push w) ?_
  simp only [List.forall_mem_cons, Piece.Below12, Piece.Same, State.readStack_push, State.push_SP, h.SP]
  refine ⟨fun k => ?_, trivial, by simp⟩
  split_ifs
  · exact hvw
  · exact hstack k

theorem SameBelow12.pop : SameBelow12 s.pop.2 t.pop.2 :=
  h.of_frame s.frame_pop t.frame_pop (by simp [Piece.Below12, Piece.Same, h.SP])

theorem SameBelow12.dropRnd : SameBelow12 s.dropRnd t.dropRnd := by
  refine h.of_frame s.frame_dropRnd t.frame_dropRnd ?_
  simp only [List.mem_singleton, forall_eq, Piece.Below12, Piece.Same, State.dropRnd, h.rndAnswers]
  cases s.rndAnswers <;> simp [h.rndDraws]

theorem SameBelow12.plotBit (px py : Nat) : SameBelow12 (s.plotBit px py) (t.plotBit px py) := by
  have frame (u : State) : FrameBut [.V, .fb] u (u.plotBit px py) := by
    rw [u.plotBit_eq]; exact frame_of_V_fb u _ _
  refine h.of_frame (frame s) (frame t) ?_
  simp only [List.forall_mem_cons, Piece.Below12, Piece.Same, State.readV_plotBit, State.pixel_plotBit, InGrid, h.config,
    h.pixel, h.readV]
  simp

end

/-- A loop whose body keeps two states alike keeps them alike. -/
theorem SameBelow12.foldl {α : Type} {f g : State → α → State}
    (hfg : ∀ {s t : State} (a : α), SameBelow12 s t → SameBelow12 (f s a) (g t a)) (l : List α) {s t : State}
    (h : SameBelow12 s t) : SameBelow12 (l.foldl f s) (l.foldl g t) := by
  induction l generalizing s t with
  | nil => exact h
  | cons a l ih => exact ih (hfg a h)

theorem SameBelow12.storeReg {s t : State} (r : Reg) (h : SameBelow12 s t) : SameBelow12 (s.storeReg r) (t.storeReg r) := by
  unfold State.storeReg
  rw [h.readV]
  exact h.writeByte (h.wrapAddr_indexed _) _

theorem SameBelow12.loadReg {s t : State} (r : Reg) (h : SameBelow12 s t) : SameBelow12 (s.loadReg r) (t.loadReg r) := by
  unfold State.loadReg
  rw [h.readByte (h.wrapAddr_indexed _)]
  exact h.writeV _ _

theorem SameBelow12.writeBytes {s t : State} (h : SameBelow12 s t) {a b : Nat} (hab : wrapAddr b = wrapAddr a)
    (bs : List Byte) : SameBelow12 (s.writeBytes a bs) (t.writeBytes b bs) := by
  induction bs generalizing s t a b with
  | nil => exact h
  | cons v bs ih =>
    refine ih (h.writeByte hab v) ?_
    simp only [wrapAddr, Config.memSize] at *
    omega

theorem SameBelow12.drawBit {s t : State} (v : Byte) (x0 py col : Nat) (h : SameBelow12 s t) :
    SameBelow12 (s.drawBit v x0 py col) (t.drawBit v x0 py col) := by
  unfold State.drawBit
  rw [h.config]
  split_ifs
  · exact h.plotBit _ _
  · exact h

theorem SameBelow12.drawRow {s t : State} (x0 y0 row : Nat) (h : SameBelow12 s t) :
    SameBelow12 (s.drawRow x0 y0 row) (t.drawRow x0 y0 row) := by
  unfold State.drawRow
  rw [h.readByte (h.wrapAddr_indexed row), h.config]
  exact SameBelow12.foldl (fun col hst => hst.drawBit _ _ _ col) _ h

theorem SameBelow12.drawRows {s t : State} (h : SameBelow12 s t) (x0 y0 n : Nat) :
    SameBelow12 (s.drawRows x0 y0 n) (t.drawRows x0 y0 n) :=
  SameBelow12.foldl (fun row hst => hst.drawRow x0 y0 row) _ h

/-! ### The instructions, the events, the step -/

/-- What one instruction does to two states that are alike: it reads the same values in both, and adds to, or puts in
place of, `PC` and `I` values that agree below bit 12. -/
theorem SameBelow12.exec {s t s' t' : State} (h : SameBelow12 s t) (i : Instr) (hs : exec i s = .next s')
    (ht : exec i t = .next t') : SameBelow12 s' t' := by
  obtain ⟨hPC, hI, hstack, -⟩ := id h
  cases i <;> cases hs <;> cases ht
  case cls =>
    exact h.of_frame (exec_frame (exec_cls s)) (exec_frame (exec_cls t)) (by simp [writesOf, Piece.Below12, Piece.Same])
  case ret => exact h.pop.writePC (by simpa [h.SP] using hstack _)
  case jp nnn => exact h.writePC rfl
  case call nnn => exact (h.push hPC).writePC rfl
  case jpV0 nnn => exact h.writePC (by rw [h.readV])
  case seImm | sneImm | seReg | sneReg => simpa only [h.readV] using h.skipIf _
  case skp | sknp => simpa only [h.readV, h.keyIsDown] using h.skipIf _
  case ldImm | addImm | ldReg | orReg | andReg | xorReg => simpa only [h.readV] using h.writeV _ _
  case addReg | subReg | shr | subnReg | shl => simpa only [h.readV] using h.writeResultThenFlag _ _ _
  case rnd => simpa only [h.nextRnd, State.randomTo] using h.dropRnd.writeV _ _
  case drw =>
    simpa only [h.readV, h.spriteColumn, h.spriteRow] using ((h.writeV _ _).drawRows _ _ _).writeDirty true
  case ldVxDT => simpa only [h.DT] using h.writeV _ _
  case ldVxK => exact h.writeWAIT _
  case ldDTVx x => simpa only [h.readV] using h.writeDT _
  case ldSTVx x => simpa only [h.readV] using h.writeST _
  case ldI => exact h.writeI rfl
  case addI x =>
    refine h.writeI ?_
    rw [BitVec.toNat_add, BitVec.toNat_add, h.readV]
    omega
  case ldF => exact h.writeI (by rw [h.readV])
  case ldB => simpa only [h.readV] using h.writeBytes (h.wrapAddr_indexed 0) _
  case stRegs => exact SameBelow12.foldl SameBelow12.storeReg _ h
  case ldRegs => exact SameBelow12.foldl SameBelow12.loadReg _ h

theorem SameBelow12.advance {s t : State} (h : SameBelow12 s t) : SameBelow12 s.advance t.advance :=
  h.of_frame s.frame_advance t.frame_advance (by simp [Piece.Below12, Piece.Same, h.nextPC])

theorem SameBelow12.takeEvent {s t : State} (h : SameBelow12 s t) : SameBelow12 s.takeEvent t.takeEvent :=
  h.of_frame s.frame_takeEvent t.frame_takeEvent (by simp [Piece.Below12, Piece.Same, h.agenda])

/-- The low 12 bits of an address, as the diagnostic carries them. -/
theorem toNat_low12 (a : Word) : (a.extractLsb' 0 12).toNat = a.toNat % 4096 := by
  simp [BitVec.extractLsb'_toNat]

/-- The logged address has 12 bits, so the log is the same in both. -/
theorem SameBelow12.raiseUnrecognized {s t : State} (h : SameBelow12 s t) (w : Word) {a b : Word}
    (hab : b.toNat % 4096 = a.toNat % 4096) : SameBelow12 (s.raiseUnrecognized w a) (t.raiseUnrecognized w b) := by
  have haddr : b.extractLsb' 0 12 = a.extractLsb' 0 12 :=
    BitVec.eq_of_toNat_eq (by rw [toNat_low12, toNat_low12, hab])
  exact h.of_frame (s.frame_raiseUnrecognized w a) (t.frame_raiseUnrecognized w b)
    (by simp [Piece.Below12, Piece.Same, h.diags, haddr])

theorem SameBelow12.performStep {s t s' t' : State} (h : SameBelow12 s t) (hs : performStep s = .next s')
    (ht : performStep t = .next t') : SameBelow12 s' t' := by
  obtain ⟨hPC, -⟩ := id h
  rcases performStep_cases hs with ⟨hw, rfl⟩ | ⟨hw, i, hi, hx⟩ | ⟨hw, hd, rfl⟩
  · obtain ⟨r, hr⟩ := Option.ne_none_iff_exists'.mp (h.WAIT ▸ hw)
    cases (performStep_of_waiting hr).symm.trans ht
    exact h.writeDirty false
  · rw [performStep_of_not_waiting (h.WAIT.trans hw), h.fetchWord, execWord_of_some hi] at ht
    exact h.advance.exec i hx ht
  · rw [performStep_of_not_waiting (h.WAIT.trans hw), h.fetchWord, execWord_of_none hd] at ht
    cases ht
    exact h.advance.raiseUnrecognized _ hPC

theorem SameBelow12.tick {s t : State} (h : SameBelow12 s t) : SameBelow12 s.tick t.tick := by
  rw [s.tick_eq, t.tick_eq, h.WAIT, h.config, h.DT, h.ST]
  split_ifs
  · exact h
  · exact (h.writeDT _).writeST _

theorem SameBelow12.setKey {s t : State} (h : SameBelow12 s t) (k : Key) (b : Bool) :
    SameBelow12 (s.setKey k b) (t.setKey k b) :=
  h.of_frame (s.frame_setKey k b) (t.frame_setKey k b) (by simp [Piece.Below12, Piece.Same, h.keys])

theorem SameBelow12.keyDown {s t : State} (h : SameBelow12 s t) (k : Key) : SameBelow12 (s.keyDown k) (t.keyDown k) := by
  unfold State.keyDown
  rw [h.keys]
  split_ifs
  · exact h
  · unfold State.completeWait
    rw [(h.setKey k true).WAIT]
    split
    · exact ((h.setKey k true).writeV _ _).writeWAIT none
    · exact h.setKey k true

theorem SameBelow12.resetEvent {s t : State} (h : SameBelow12 s t) : SameBelow12 s.resetEvent t.resetEvent :=
  h.of_frame s.frame_resetEvent t.frame_resetEvent (by
    simp only [eventWrites, List.forall_mem_cons, Piece.Below12, Piece.Same, State.resetEvent_readByte,
      State.resetEvent_readV, State.resetEvent_readStack, State.resetEvent_pixel, h.config]
    exact ⟨rfl, rfl, fun _ => trivial, fun _ => trivial, rfl, rfl, fun _ => trivial, rfl, rfl, fun _ _ => trivial, rfl,
      by simp⟩)

theorem SameBelow12.setPhase {s t : State} (h : SameBelow12 s t) (ph : Phase) :
    SameBelow12 { s with phase := ph } { t with phase := ph } :=
  h.of_frame (frame_of_phase s ph) (frame_of_phase t ph) (by simp [Piece.Below12, Piece.Same])

/-- What one event does to two states that are alike. -/
theorem SameBelow12.applyEvent {s t s' t' : State} (h : SameBelow12 s t) {e : HostEvent} (hs : applyEvent e s = .next s')
    (ht : applyEvent e t = .next t') : SameBelow12 s' t' := by
  cases e with
  | step => exact h.performStep hs ht
  | load image =>
    rcases applyEvent_cases hs with ⟨⟨⟩, -⟩ | ⟨⟨⟩, -⟩ | ⟨_, ⟨⟩, -⟩ | ⟨_, ⟨⟩, -⟩ | ⟨⟨⟩, -⟩ | ⟨_, ⟨⟩, hp, rfl⟩ | ⟨⟨⟩, -⟩
    rw [applyEvent_load_of_reset image (h.phase.trans hp)] at ht
    cases ht
    exact (h.writeBytes rfl _).setPhase .loaded
  | tick => cases hs; cases ht; exact h.tick
  | keyDown k => cases hs; cases ht; exact h.keyDown k
  | keyUp k => cases hs; cases ht; exact h.setKey k false
  | reset => cases hs; cases ht; exact h.resetEvent
  | quit => cases hs; cases ht; exact h.setPhase .ended

/-- The one refusal, read off the next event and the phase. -/
theorem step_refused_iff (s : State) (r : Refusal) : step s = .refused r ↔
    (∃ image, s.nextEvent = .load image) ∧ (s.phase = .loaded ∨ s.phase = .running) ∧ r = .loadNotAdmitted := by
  obtain ⟨hlate, hnext⟩ := onlyALateLoadIsEverRefused s
  constructor
  · intro hr
    by_cases hl : (∃ image, s.nextEvent = .load image) ∧ (s.phase = .loaded ∨ s.phase = .running)
    · cases (hlate hl).symm.trans hr
      exact ⟨hl.1, hl.2, rfl⟩
    · obtain ⟨t, ht⟩ := hnext hl
      cases ht.symm.trans hr
  · rintro ⟨hload, hp, rfl⟩
    exact hlate ⟨hload, hp⟩

theorem SameBelow12.nextEvent {s t : State} (h : SameBelow12 s t) : t.nextEvent = s.nextEvent := by
  simp only [State.nextEvent, h.agenda]

/-- Both are refused or neither: the next event and the phase are the same. -/
theorem SameBelow12.step_refused {s t : State} (h : SameBelow12 s t) (r : Refusal) :
    step t = .refused r ↔ step s = .refused r := by
  rw [step_refused_iff, step_refused_iff, h.nextEvent, h.phase]

theorem SameBelow12.step {s t s' t' : State} (h : SameBelow12 s t) (hs : step s = .next s') (ht : step t = .next t') :
    SameBelow12 s' t' := by
  by_cases hp : s.phase = .ended
  · cases (step_of_ended hp).symm.trans hs
    cases (step_of_ended (h.phase.trans hp)).symm.trans ht
    exact h
  · rw [step_of_running hp] at hs
    rw [step_of_running (h.phase ▸ hp), h.nextEvent] at ht
    exact h.takeEvent.applyEvent hs ht

/-- Settles O59: a step goes through the same branches in both states, and each update it makes keeps them alike. -/
theorem highAddressBitsAreUnobservable : Obligations.HighAddressBitsAreUnobservable := by
  refine fun s t h => ⟨fun s' hs => ?_, fun r hr => (h.step_refused r).mpr hr⟩
  cases ht : step t with
  | next t' => exact ⟨t', rfl, h.step hs ht⟩
  | fault f => cases f
  | refused r => cases ((h.step_refused r).mp ht).symm.trans hs

end Sys2Proof.Machine
end

section
/-! What a step does in each situation: a word is executed, an event is applied, or nothing happens. -/

namespace Sys2Proof.Machine

/-! ### The `Step` event, by the word at `PC` (40_control_flow.md R120) -/

theorem toNat_nextPC (pc : Word) : (nextPC pc).toNat = (pc.toNat + 2) % 65536 := by
  rw [nextPC, BitVec.toNat_add]; rfl

theorem step_of_ready_some {s : State} {i : Instr} (h : Ready s) (hi : decodeWord s.fetchWord = some i) :
    step s = exec i s.takeEvent.advance := (step_of_ready h).trans (execWord_of_some hi _ _)

theorem step_of_ready_none {s : State} (h : Ready s) (hd : decodeWord s.fetchWord = none) :
    step s = .next (s.takeEvent.advance.raiseUnrecognized s.fetchWord s.PC) :=
  (step_of_ready h).trans (execWord_of_none hd _ _)

theorem State.frame_takeEvent_advance (s : State) : FrameBut [.PC, .dirty, .phase, .agenda] s s.takeEvent.advance :=
  s.frame_takeEvent.comp (State.frame_advance _) (by decide) (by decide)

theorem decodeWord_of_decodeBytes {hi lo : Byte} {i : Instr} {rest : List Byte}
    (h : decodeBytes (hi :: lo :: rest) = .ok (i, rest)) : decodeWord (wordOfBytes hi lo) = some i := by
  cases hw : decodeWord (wordOfBytes hi lo) with
  | some j =>
    cases (decodeBytes_of_decodeWord hw rest).symm.trans h
    rfl
  | none => simp [decodeBytes, hw] at h

/-- Settles O8: the two bytes are the fetched word, and the state written out is the advanced state. -/
theorem stepRunsTheDecodedInstruction : Obligations.StepRunsTheDecodedInstruction :=
  fun _ _ hready hbytes => step_of_ready_some hready (decodeWord_of_decodeBytes hbytes)

/-- Settles O9: the anomaly is logged in the advanced state. -/
theorem stepOnAnUnrecognizedWordOnlyLogsIt : Obligations.StepOnAnUnrecognizedWordOnlyLogsIt := by
  rintro s w hready rfl hd
  refine ⟨_, step_of_ready_none hready hd, toNat_nextPC s.PC, rfl, ⟨_, rfl, rfl, toNat_low12 s.PC⟩, rfl, rfl, ?_⟩
  exact s.frame_takeEvent_advance.comp (State.frame_raiseUnrecognized _ _ _) (by decide) (by decide)

/-- Settles O10: with a key awaited the event writes `dirty` only. -/
theorem stepWhileAwaitingAKeyChangesNothing : Obligations.StepWhileAwaitingAKeyChangesNothing := by
  intro s r hphase he hwait
  have hstep : step s = .next (s.takeEvent.writeDirty false) := by
    rw [step_of_running hphase, he]
    exact performStep_of_waiting hwait
  exact ⟨_, hstep, hwait, rfl, rfl, s.frame_takeEvent.comp (State.frame_writeDirty _ _) (by decide) (by decide)⟩

/-- Settles O11: by the agenda, whose first event is the next one; `Quit` ends the run. -/
theorem stepAppliesTheHostsNextEvent : Obligations.StepAppliesTheHostsNextEvent := by
  refine ⟨fun s e rest hphase hagenda => ?_, fun s hphase hagenda => ?_, fun s => ?_⟩
  · rw [step_of_running hphase, State.nextEvent, State.takeEvent, hagenda]
    rfl
  · have hempty : s.takeEvent = s := by rw [State.takeEvent, hagenda, List.tail_nil, ← hagenda]
    rw [step_of_running hphase, State.nextEvent, hagenda, hempty]
    rfl
  · exact ⟨s.quit, rfl, rfl, s.frame_quit, step_of_ended rfl⟩

/-- Settles O20: the jump undoes the advance of `PC` but for the bits that the fetch drops. -/
theorem idleLoopIsAFixedPoint : Obligations.IdleLoopIsAFixedPoint := by
  rintro s hready ⟨nnn, hdecode, htarget⟩
  have hPC : (zextAddr nnn).toNat = s.PC.toNat % 4096 := (toNat_zextAddr nnn).trans htarget
  have hfetch : (s.takeEvent.advance.writePC (zextAddr nnn)).fetchWord = s.fetchWord := by
    rw [State.fetchWord_writePC, hPC, Nat.mod_mod, Nat.mod_add_mod]
    exact (s.readWord_eq_bytes_mod_4096 s.PC.toNat).symm
  refine ⟨_, step_of_ready_some hready hdecode, hPC, rfl, hfetch, rfl, ⟨nnn, hfetch ▸ hdecode, ?_⟩, ?_⟩
  · exact htarget.trans ((congrArg wrapAddr hPC).trans (wrapAddr_mod_4096 _)).symm
  · exact s.frame_takeEvent_advance.comp (State.frame_writePC _ _) (by decide) (by decide)

/-- Every step, by whether a word is executed: if none is, the run is ended, a key is awaited, or the event is another. -/
theorem step_cases_ready {s t : State} (h : step s = .next t) :
    (Ready s ∧ execWord s.fetchWord s.PC s.takeEvent.advance = .next t) ∨
    (¬ Ready s ∧ (t = s ∨ t = s.takeEvent.writeDirty false ∨
      s.nextEvent ≠ .step ∧ applyEvent s.nextEvent s.takeEvent = .next t)) := by
  by_cases hready : Ready s
  · exact .inl ⟨hready, (step_of_ready hready).symm.trans h⟩
  · refine .inr ⟨hready, ?_⟩
    rcases step_cases h with ⟨-, rfl⟩ | ⟨hphase, hevent⟩
    · exact .inl rfl
    · by_cases he : s.nextEvent = .step
      · have hwait : s.WAIT ≠ none := fun hwait => hready ⟨hphase, he, hwait⟩
        obtain ⟨r, hr⟩ := Option.ne_none_iff_exists'.mp hwait
        rw [he] at hevent
        cases (performStep_of_waiting (s := s.takeEvent) hr).symm.trans hevent
        exact .inr (.inl rfl)
      · exact .inr (.inr ⟨he, hevent⟩)

/-! ### What one instruction does to `dirty`, `WAIT` and the log -/

theorem exec_dirty_iff {i : Instr} {s t : State} (h : exec i s = .next t) (hclean : s.dirty = false) :
    t.dirty = true ↔ i = .cls ∨ ∃ x y n, i = .drw x y n := by
  by_cases hi : Piece.dirty ∈ writesOf i
  · cases i with
    | cls => cases h; simp
    | drw x y n => cases h; simp
    | _ => simp [writesOf] at hi
  · have hsame : t.dirty = s.dirty := exec_frame h .dirty hi
    cases i <;> simp_all [writesOf]

/-- Settles O34: `dirty` is 0 in the advanced state, and two instructions write it. -/
theorem stepReportsDirtyExactlyForClsAndDrw : Obligations.StepReportsDirtyExactlyForClsAndDrw := by
  intro s hready
  cases hd : decodeWord s.fetchWord with
  | none => exact ⟨_, step_of_ready_none hready hd, by simp⟩
  | some i =>
    obtain ⟨t, ht⟩ := exec_answers i s.takeEvent.advance
    exact ⟨t, (step_of_ready_some hready hd).trans ht, by simpa using exec_dirty_iff ht rfl⟩

theorem exec_WAIT {i : Instr} {s t : State} (h : exec i s = .next t) :
    t.WAIT = s.WAIT ∨ ∃ x, i = .ldVxK x ∧ t.WAIT = some x := by
  by_cases hi : Piece.WAIT ∈ writesOf i
  · cases i with
    | ldVxK x => cases h; exact .inr ⟨x, rfl, rfl⟩
    | _ => simp [writesOf] at hi
  · exact .inl (exec_frame h .WAIT hi)

theorem State.WAIT_keyDown (s : State) (k : Key) :
    (s.keyDown k).WAIT = s.WAIT ∨ (s.keyDown k).WAIT = none ∧ s.keys.get k = false := by
  unfold State.keyDown
  split_ifs with hk
  · exact .inl rfl
  · unfold State.completeWait
    split
    · exact .inr ⟨rfl, by simpa using hk⟩
    · exact .inl rfl

/-- Of the events that execute no word only a fresh press and `Reset` touch the wait, and both end it. -/
theorem applyEvent_WAIT {e : HostEvent} {s t : State} (he : e ≠ .step) (h : applyEvent e s = .next t) :
    t.WAIT = s.WAIT ∨ t.WAIT = none ∧ (e = .reset ∨ ∃ k, e = .keyDown k ∧ s.keys.get k = false) := by
  cases e with
  | step => exact absurd rfl he
  | reset => cases h; exact .inr ⟨rfl, .inl rfl⟩
  | keyDown k =>
    cases h
    exact (s.WAIT_keyDown k).imp_right fun ⟨hwait, hk⟩ => ⟨hwait, .inr ⟨k, rfl, hk⟩⟩
  | load | tick | keyUp | quit => exact .inl (applyEvent_frame h .WAIT (by simp [eventWrites]))

/-- Settles O38: a wait is entered by the one instruction that writes it, which runs in no wait, and left by the one
event of a fresh press, or by `Reset`. -/
theorem onlyFx0AEntersAndOnlyKeyDownOrResetLeavesTheWait :
    Obligations.OnlyFx0AEntersAndOnlyKeyDownOrResetLeavesTheWait := by
  intro s t h
  rcases step_cases_ready h with ⟨hready, hx⟩ | ⟨-, rfl | rfl | ⟨he, hevent⟩⟩
  · obtain ⟨-, -, hwait⟩ := id hready
    refine ⟨fun _ r hr => ⟨hready, ?_⟩, fun r hr => by simp [hwait] at hr⟩
    rcases execWord_cases hx with ⟨i, hi, hx⟩ | ⟨-, rfl⟩
    · rcases exec_WAIT hx with hsame | ⟨x, rfl, hset⟩
      · simp [hsame, hwait] at hr
      · cases hset.symm.trans hr
        exact hi
    · simp [hwait] at hr
  · exact ⟨fun hn r hr => by simp [hn] at hr, fun r hr hne => absurd hr hne⟩
  · exact ⟨fun hn r hr => by simp [hn] at hr, fun r hr hne => absurd hr hne⟩
  · rcases applyEvent_WAIT he hevent with hsame | ⟨hnone, hcause⟩
    · exact ⟨fun hn r hr => by simp [hsame, hn] at hr, fun r hr hne => absurd (hsame.trans hr) hne⟩
    · exact ⟨fun _ r hr => by simp [hnone] at hr, fun _ _ _ => ⟨hnone, hcause⟩⟩

theorem diags_not_mem_writesOf (i : Instr) : Piece.diags ∉ writesOf i := by
  cases i <;> simp [writesOf]

theorem diags_not_mem_eventWrites {e : HostEvent} (he : e ≠ .step) : Piece.diags ∉ eventWrites e := by
  cases e <;> simp_all [eventWrites]

/-- Settles O57: the log is written where a word is executed that decodes to nothing, and nowhere else. -/
theorem diagnosticLogIsAppendOnly : Obligations.DiagnosticLogIsAppendOnly := by
  intro s t h
  rcases step_cases_ready h with ⟨hready, hx⟩ | ⟨hnot, hcase⟩
  · rcases execWord_cases hx with ⟨i, hi, hx⟩ | ⟨hd, rfl⟩
    · exact .inl ⟨exec_frame hx .diags (diags_not_mem_writesOf i), fun hn => by simp [hi] at hn⟩
    · exact .inr ⟨hready, hd, _, rfl, rfl, toNat_low12 s.PC⟩
  · refine .inl ⟨?_, fun hn => hnot hn.1⟩
    rcases hcase with rfl | rfl | ⟨he, hevent⟩
    · rfl
    · rfl
    · exact applyEvent_frame hevent .diags (diags_not_mem_eventWrites he)

end Sys2Proof.Machine
end

section
/-! The invariant: every step keeps it, and it holds after reset. -/

namespace Sys2Proof.Machine

/-! ### Which instructions touch the list of bytes, the list of pixels -/

@[simp] theorem State.drawRows_mem (s : State) (x0 y0 n : Nat) : (s.drawRows x0 y0 n).mem = s.mem := by
  rw [State.drawRows_eq]

theorem exec_mem {i : Instr} {s t : State} (h : exec i s = .next t) (hi : Piece.mem ∉ writesOf i) : t.mem = s.mem := by
  cases i <;> cases h
  case ldB | stRegs => simp [writesOf] at hi
  case seImm | sneImm | seReg | sneReg | skp | sknp => exact s.skipIf_mem _
  case rnd => exact s.dropRnd_mem
  case drw => exact State.drawRows_mem _ _ _ _
  case ldRegs => rw [State.loadRegs_eq]
  all_goals rfl

theorem exec_fb {i : Instr} {s t : State} (h : exec i s = .next t) (hi : Piece.fb ∉ writesOf i) : t.fb = s.fb := by
  cases i <;> cases h
  case cls | drw => simp [writesOf] at hi
  case seImm | sneImm | seReg | sneReg | skp | sknp => exact s.skipIf_fb _
  case rnd => exact s.dropRnd_fb
  case ldB => rw [State.writeBytes_eq]
  case stRegs => rw [State.storeRegs_eq]
  case ldRegs => rw [State.loadRegs_eq]
  all_goals rfl

theorem config_not_mem_writesOf (i : Instr) : Piece.config ∉ writesOf i := by
  cases i <;> simp [writesOf]

theorem phase_not_mem_writesOf (i : Instr) : Piece.phase ∉ writesOf i := by
  cases i <;> simp [writesOf]

theorem exec_config {i : Instr} {s t : State} (h : exec i s = .next t) : t.config = s.config :=
  exec_frame h .config (config_not_mem_writesOf i)

/-- Every instruction keeps memory canonical: two write it, byte by byte. -/
theorem exec_mem_wf {i : Instr} {s t : State} (h : exec i s = .next t) (hw : Memory.wf s.config.fontTable s.mem = true) :
    Memory.wf t.config.fontTable t.mem = true := by
  by_cases hi : Piece.mem ∈ writesOf i
  · cases i with
    | ldB x => cases h; exact s.writeBytes_wf _ _ hw
    | stRegs x => cases h; exact s.storeRegs_wf _ hw
    | _ => simp [writesOf] at hi
  · rw [exec_config h, exec_mem h hi]
    exact hw

/-- Every instruction keeps the framebuffer canonical: `CLS` empties it, `DRW` puts pixels of the grid. -/
theorem exec_fb_wf {i : Instr} {s t : State} (h : exec i s = .next t)
    (hw : Framebuffer.wf s.config.fbWidth s.config.fbHeight s.fb = true) :
    Framebuffer.wf t.config.fbWidth t.config.fbHeight t.fb = true := by
  rw [exec_config h]
  by_cases hi : Piece.fb ∈ writesOf i
  · cases i with
    | cls => cases h; rfl
    | drw x y n => cases h; exact State.drawRows_wf _ _ _ (s.writeV 15 0x00) hw
    | _ => simp [writesOf] at hi
  · rw [exec_fb h hi]
    exact hw

/-! ### The invariant, part by part -/

/-- An instruction keeps the invariant where a word is being executed: it leaves the phase and the log. -/
theorem StateInv.exec {i : Instr} {s t : State} (h : StateInv s) (hphase : s.phase = .running)
    (hx : exec i s = .next t) : StateInv t := by
  obtain ⟨hmem, hfb, -, hlog⟩ := h
  have hphase' : t.phase = s.phase := exec_frame hx .phase (phase_not_mem_writesOf i)
  have hdiags : t.diags = s.diags := exec_frame hx .diags (diags_not_mem_writesOf i)
  exact ⟨exec_mem_wf hx hmem, exec_fb_wf hx hfb, fun _ => .inl (hphase'.trans hphase), hdiags ▸ hlog⟩

theorem StateInv.advance {s : State} (h : StateInv s) : StateInv s.advance := by
  obtain ⟨hmem, hfb, -, hlog⟩ := h
  exact ⟨hmem, hfb, fun _ => .inl rfl, hlog⟩

theorem StateInv.raiseUnrecognized {s : State} (h : StateInv s) {w : Word} (hw : decodeWord w = none) (a : Word) :
    StateInv (s.raiseUnrecognized w a) := by
  obtain ⟨hmem, hfb, hwait, hlog⟩ := h
  refine ⟨hmem, hfb, hwait, fun d hd => ?_⟩
  rcases List.mem_append.mp hd with hd | hd
  · exact hlog d hd
  · rw [List.mem_singleton.mp hd]
    exact hw

theorem StateInv.performStep {s t : State} (h : StateInv s) (hs : performStep s = .next t) : StateInv t := by
  rcases performStep_cases hs with ⟨-, rfl⟩ | ⟨-, i, -, hx⟩ | ⟨-, hd, rfl⟩
  · exact h
  · exact h.advance.exec rfl hx
  · exact h.advance.raiseUnrecognized hd _

theorem StateInv.tick {s : State} (h : StateInv s) : StateInv s.tick := by
  rw [s.tick_eq]
  split_ifs <;> exact h

/-- A press leaves memory, the framebuffer and the log, and can only end a wait. -/
theorem StateInv.keyDown {s : State} (h : StateInv s) (k : Key) : StateInv (s.keyDown k) := by
  unfold State.keyDown
  split_ifs
  · exact h
  · obtain ⟨hmem, hfb, hwait, hlog⟩ := h
    unfold State.completeWait
    split
    · exact ⟨hmem, hfb, fun hne => absurd rfl hne, hlog⟩
    · exact ⟨hmem, hfb, hwait, hlog⟩

theorem StateInv.resetEvent {s : State} (h : StateInv s) : StateInv s.resetEvent := by
  obtain ⟨-, -, -, hlog⟩ := h
  exact ⟨rfl, rfl, fun hne => absurd rfl hne, hlog⟩

/-- An admitted `Load` comes before any word was executed, so no key is awaited. -/
theorem StateInv.loadImage {s : State} (h : StateInv s) (hphase : s.phase = .reset) (image : List Byte) :
    StateInv (s.loadImage image) := by
  obtain ⟨hmem, hfb, hwait, hlog⟩ := h
  have hnone : s.WAIT = none := by
    by_contra hne
    rcases hwait hne with h | h <;> cases h.symm.trans hphase
  have hbytes := s.writeBytes_wf Config.progStart (image.take Config.progMax) hmem
  unfold State.loadImage
  rw [State.writeBytes_eq] at hbytes ⊢
  exact ⟨hbytes, hfb, fun hne => absurd hnone hne, hlog⟩

theorem StateInv.quit {s : State} (h : StateInv s) : StateInv s.quit := by
  obtain ⟨hmem, hfb, -, hlog⟩ := h
  exact ⟨hmem, hfb, fun _ => .inr rfl, hlog⟩

/-- Settles O52: event by event, and for a `Step` by what is done with the word. -/
theorem everyStepKeepsTheInvariant : Obligations.EveryStepKeepsTheInvariant := by
  intro s t hinv h
  rcases step_cases h with ⟨-, rfl⟩ | ⟨-, h⟩
  · exact hinv
  · have hinv : StateInv s.takeEvent := hinv
    rcases applyEvent_cases h with ⟨-, h⟩ | ⟨-, rfl⟩ | ⟨k, -, rfl⟩ | ⟨k, -, rfl⟩ | ⟨-, rfl⟩ | ⟨image, -, hphase, rfl⟩ |
      ⟨-, rfl⟩
    · exact hinv.performStep h
    · exact hinv.tick
    · exact hinv.keyDown k
    · exact hinv
    · exact hinv.resetEvent
    · exact hinv.loadImage hphase image
    · exact hinv.quit

/-- Settles O53: the reset state has no byte, no pixel and no diagnostic listed, and awaits no key. -/
theorem resetMeetsTheInvariant : Obligations.ResetMeetsTheInvariant :=
  ⟨⟨reset_mem_wf, reset_fb_wf, fun hne => absurd rfl hne, fun _ hd => absurd hd List.not_mem_nil⟩, rfl, rfl,
    ⟨by decide, rfl, rfl⟩, rfl⟩

end Sys2Proof.Machine
end

section
/-! The proofs about the model's two canonical forms (log entries 36 and 39): each is a strictly sorted list whose members
are told by what is read, so equal readings are equal lists. -/

namespace Sys2Proof.Machine

/-- Two lists that rise strictly in one order and have the same members are equal. -/
theorem eq_of_strictly_sorted {α : Type} {r : α → α → Prop} (hasymm : ∀ a b, r a b → ¬ r b a) {l m : List α}
    (hl : l.Pairwise r) (hm : m.Pairwise r) (hmem : ∀ a, a ∈ l ↔ a ∈ m) : l = m := by
  have hne {a b : α} (h : r a b) : a ≠ b := fun e => hasymm a b h (by rw [e] at h ⊢; exact h)
  have hperm : l.Perm m := (List.perm_ext_iff_of_nodup (hl.imp hne) (hm.imp hne)).mpr hmem
  exact hperm.eq_of_pairwise (fun a b _ _ hab hba => absurd hba (hasymm a b hab)) hl hm

/-! ### Memory -/

/-- What the canonical form of a list that starts with `(a, v)` says. -/
theorem Memory.wfFrom_cons {f : Config.Font} {low a : Nat} {v : Byte} {m : Memory} :
    Memory.wfFrom f low ((a, v) :: m) = true ↔
      low ≤ a ∧ a < Config.memSize ∧ v ≠ unlisted f a ∧ Memory.wfFrom f (a + 1) m = true := by
  simp only [Memory.wfFrom, Bool.and_eq_true, decide_eq_true_eq, and_assoc]

theorem Memory.le_of_mem_of_wfFrom {f : Config.Font} {low : Nat} {m : Memory} (hw : Memory.wfFrom f low m = true)
    {c : Host.Cell} (hc : c ∈ m) : low ≤ c.1 := by
  induction m generalizing low with
  | nil => cases hc
  | cons d m ih =>
    obtain ⟨hlow, -, -, hrest⟩ := Memory.wfFrom_cons.mp hw
    rcases List.mem_cons.mp hc with rfl | hc
    · exact hlow
    · have := ih hrest hc
      omega

theorem Memory.pairwise_of_wfFrom {f : Config.Font} {low : Nat} {m : Memory} (hw : Memory.wfFrom f low m = true) :
    m.Pairwise (fun c d => c.1 < d.1) := by
  induction m generalizing low with
  | nil => exact List.Pairwise.nil
  | cons c m ih =>
    obtain ⟨-, -, -, hrest⟩ := Memory.wfFrom_cons.mp hw
    exact List.Pairwise.cons (fun d hd => Memory.le_of_mem_of_wfFrom hrest hd) (ih hrest)

/-- A byte that does not read as an unlisted one is listed. -/
theorem Memory.mem_of_read_ne {f : Config.Font} {m : Memory} {a : Nat} (h : m.read f a ≠ unlisted f a) :
    (a, m.read f a) ∈ m := by
  induction m with
  | nil => exact absurd rfl h
  | cons c m ih =>
    obtain ⟨b, v⟩ := c
    by_cases hab : a = b
    · simp [Memory.read, hab]
    · simp only [Memory.read, hab, if_false] at h ⊢
      exact List.mem_cons_of_mem _ (ih h)

/-- What is listed in a canonical memory reads back, and is not what an unlisted address reads as. -/
theorem Memory.read_of_mem {f : Config.Font} {low : Nat} {m : Memory} (hw : Memory.wfFrom f low m = true) {a : Nat}
    {v : Byte} (h : (a, v) ∈ m) : a < Config.memSize ∧ m.read f a = v ∧ v ≠ unlisted f a := by
  induction m generalizing low with
  | nil => cases h
  | cons c m ih =>
    obtain ⟨b, u⟩ := c
    obtain ⟨-, hsize, hlisted, hrest⟩ := Memory.wfFrom_cons.mp hw
    rcases List.mem_cons.mp h with heq | h
    · cases heq
      exact ⟨hsize, by simp [Memory.read], hlisted⟩
    · have hba : b + 1 ≤ a := Memory.le_of_mem_of_wfFrom hrest h
      rw [Memory.read, if_neg (by omega)]
      exact ih hrest h

theorem Memory.mem_iff_read {f : Config.Font} {m : Memory} (hw : Memory.wf f m = true) (c : Host.Cell) :
    c ∈ m ↔ c.1 < Config.memSize ∧ m.read f c.1 = c.2 ∧ c.2 ≠ unlisted f c.1 := by
  obtain ⟨a, v⟩ := c
  constructor
  · exact Memory.read_of_mem hw
  · rintro ⟨-, hread, hne⟩
    have hlisted := Memory.mem_of_read_ne (hread.trans_ne hne)
    rwa [hread] at hlisted

/-- Settles O6: the members of a canonical memory are told by its readings below 4096. -/
theorem canonicalMemoriesThatReadAlikeAreEqual : Obligations.CanonicalMemoriesThatReadAlikeAreEqual := by
  intro font m n hm hn hread
  refine eq_of_strictly_sorted (fun _ _ h => Nat.lt_asymm h) (Memory.pairwise_of_wfFrom hm) (Memory.pairwise_of_wfFrom hn)
    fun c => ?_
  rw [Memory.mem_iff_read hm, Memory.mem_iff_read hn]
  exact and_congr_right fun hsize => by rw [hread c.1 hsize]

/-! ### The framebuffer -/

theorem pixelBefore_asymm (p q : Nat × Nat) (h : pixelBefore p q = true) : ¬ pixelBefore q p = true := by
  simp only [pixelBefore, Bool.or_eq_true, Bool.and_eq_true, decide_eq_true_eq] at *
  omega

theorem Framebuffer.pairwise_of_wf {w h : Nat} {fb : Framebuffer} (hw : Framebuffer.wf w h fb = true) :
    fb.Pairwise (fun p q => pixelBefore p q = true) := by
  induction fb with
  | nil => exact List.Pairwise.nil
  | cons p fb ih =>
    obtain ⟨-, -, hbefore, hrest⟩ := Framebuffer.wf_cons.mp hw
    exact List.Pairwise.cons hbefore (ih hrest)

theorem Framebuffer.inside_of_mem {w h : Nat} {fb : Framebuffer} (hw : Framebuffer.wf w h fb = true) {p : Nat × Nat}
    (hp : p ∈ fb) : p.1 < w ∧ p.2 < h := by
  induction fb with
  | nil => cases hp
  | cons q fb ih =>
    obtain ⟨hx, hy, -, hrest⟩ := Framebuffer.wf_cons.mp hw
    rcases List.mem_cons.mp hp with rfl | hp
    · exact ⟨hx, hy⟩
    · exact ih hrest hp

/-- In a canonical framebuffer the listed pixels are exactly those that are on. -/
theorem State.mem_fb_iff (s : State) (hw : Framebuffer.wf s.config.fbWidth s.config.fbHeight s.fb = true) (p : Nat × Nat) :
    p ∈ s.fb ↔ s.pixel p.1 p.2 = true := by
  simp only [State.pixel, Bool.and_eq_true, decide_eq_true_eq, List.contains_iff_mem]
  exact ⟨fun hp => ⟨Framebuffer.inside_of_mem hw hp, hp⟩, fun h => h.2⟩

/-- Settles O7: the members of a canonical framebuffer are the pixels that are on. -/
theorem canonicalFramebuffersThatLookAlikeAreEqual : Obligations.CanonicalFramebuffersThatLookAlikeAreEqual := by
  intro s t _ hs ht hpixel
  refine eq_of_strictly_sorted pixelBefore_asymm (Framebuffer.pairwise_of_wf ht) (Framebuffer.pairwise_of_wf hs) fun p => ?_
  rw [t.mem_fb_iff ht, s.mem_fb_iff hs, hpixel]

end Sys2Proof.Machine
end

section
/-! The proofs about 40_control_flow.md sections 2 and 3 and 44_keypad.md section 2: return, call, nested calls, and the
six skips. -/

namespace Sys2Proof.Machine

/-! ### Return and call -/

theorem toNat_sub_one (v : Nibble) : (v - 1#4).toNat = (v.toNat + 15) % 16 := by
  bv_omega

theorem toNat_add_one (v : Nibble) : (v + 1#4).toNat = (v.toNat + 1) % 16 := by
  bv_omega

/-- Settles O12: the pop moves `SP` and reads the entry it then names. -/
theorem retPopsTheCallStackIntoPC : Obligations.RetPopsTheCallStackIntoPC :=
  ⟨recognises_ret, fun s => ⟨_, exec_ret s, toNat_sub_one s.SP, rfl, exec_frame (exec_ret s)⟩⟩

/-- Settles O14: the push writes one entry, the jump keeps it. -/
theorem callPushesTheAdvancedPCAndJumps : Obligations.CallPushesTheAdvancedPCAndJumps :=
  ⟨recognises_call, fun nnn s => ⟨_, exec_call nnn s, toNat_zextAddr nnn, toNat_add_one s.SP,
    s.readStack_push s.PC, exec_frame (exec_call nnn s)⟩⟩

/-! ### Nested calls -/

theorem execAll_append {is js : List Instr} {s t : State} (h : execAll is s = .next t) :
    execAll (is ++ js) s = execAll js t := by
  induction is generalizing s with
  | nil => cases h; rfl
  | cons i is ih =>
    obtain ⟨u, hu⟩ := exec_answers i s
    simp only [execAll, List.cons_append, hu] at h ⊢
    exact ih h

theorem execAll_cons {i : Instr} {s t : State} (h : exec i s = .next t) (is : List Instr) :
    execAll (i :: is) s = execAll is t := by
  simp only [execAll, h]

/-- The program of nested calls to `targets`, and as many returns. -/
def nestedCalls (targets : List Addr) : List Instr := targets.map .call ++ List.replicate targets.length .ret

/-- One level more: a call around the nested calls, and one return after them. -/
theorem nestedCalls_cons (a : Addr) (targets : List Addr) :
    nestedCalls (a :: targets) = .call a :: (nestedCalls targets ++ [.ret]) := by
  simp [nestedCalls, List.replicate_succ', ← List.append_assoc]

/-- The return address that the call of depth `j` pushes, where the first call is made at `pc`: `pc`, or the target of the
call before. -/
def returnAddress (pc : Word) (targets : List Addr) (j : Nat) : Word := (pc :: targets.map zextAddr).getD j 0

theorem returnAddress_zero (pc : Word) (targets : List Addr) : returnAddress pc targets 0 = pc := rfl

theorem returnAddress_succ (pc : Word) (a : Addr) (targets : List Addr) (j : Nat) :
    returnAddress pc (a :: targets) (j + 1) = returnAddress (zextAddr a) targets j := rfl

/-- The state in which the called program starts. -/
def State.afterCall (s : State) (a : Addr) : State := (s.push s.PC).writePC (zextAddr a)

theorem exec_call_eq_afterCall (a : Addr) (s : State) : exec (.call a) s = .next (s.afterCall a) := rfl

/-- A call, a program that leaves `SP` as it found it, and a return: control comes back to whatever the entry of the call
then holds. -/
theorem execAll_call_ret {a : Addr} {is : List Instr} {s t : State} (h : execAll is (s.afterCall a) = .next t)
    (hSP : t.SP = (s.afterCall a).SP) (hframe : FrameBut [.PC, .SP, .stack] (s.afterCall a) t) :
    ∃ u, execAll (.call a :: (is ++ [.ret])) s = .next u ∧ u.PC = t.readStack s.SP ∧ u.SP = s.SP ∧
      (∀ k, u.readStack k = t.readStack k) ∧ FrameBut [.PC, .SP, .stack] s u := by
  have hback : t.SP - 1#4 = s.SP := by
    rw [hSP]; show s.SP + 1#4 - 1#4 = s.SP; bv_omega
  refine ⟨t.pop.2.writePC t.pop.1, ?_, congrArg t.readStack hback, hback, fun _ => rfl, ?_⟩
  · rw [execAll_cons (exec_call_eq_afterCall a s), execAll_append h, execAll_cons (exec_ret t)]
    rfl
  · exact ((exec_frame (exec_call_eq_afterCall a s)).trans hframe).comp (exec_frame (exec_ret t)) (fun _ => id) (by decide)

/-- Nested calls, at most as many as the stack has entries, come back to where they started, and leave their return
addresses in the entries from `SP` up (40_control_flow.md R124). -/
theorem execAll_nestedCalls (targets : List Addr) (s : State) (hlen : targets.length ≤ 16) :
    ∃ t, execAll (nestedCalls targets) s = .next t ∧ t.PC = s.PC ∧ t.SP = s.SP ∧
      (∀ k, t.readStack k = if (k - s.SP).toNat < targets.length then returnAddress s.PC targets (k - s.SP).toNat
        else s.readStack k) ∧ FrameBut [.PC, .SP, .stack] s t := by
  induction targets generalizing s with
  | nil => exact ⟨s, rfl, rfl, rfl, fun k => by simp, FrameBut.refl _ s⟩
  | cons a targets ih =>
    simp only [List.length_cons] at hlen ⊢
    obtain ⟨t, ht, -, htSP, htstack, htframe⟩ := ih (s.afterCall a) (by omega)
    obtain ⟨u, hu, huPC, huSP, hustack, huframe⟩ := execAll_call_ret ht htSP htframe
    have hstack : ∀ k, u.readStack k = if (k - s.SP).toNat < targets.length + 1 then
        returnAddress s.PC (a :: targets) (k - s.SP).toNat else s.readStack k := by
      intro k
      rw [hustack, htstack]
      show (if (k - (s.SP + 1#4)).toNat < targets.length then returnAddress (zextAddr a) targets (k - (s.SP + 1#4)).toNat
        else (s.push s.PC).readStack k) = _
      rw [State.readStack_push]
      by_cases hk : k = s.SP
      · have houter : (k - (s.SP + 1#4)).toNat = 15 := by bv_omega
        have hzero : (k - s.SP).toNat = 0 := by bv_omega
        rw [houter, hzero, if_neg (by omega), if_pos hk, if_pos (by omega), returnAddress_zero]
      · have hsucc : (k - s.SP).toNat = (k - (s.SP + 1#4)).toNat + 1 := by bv_omega
        rw [hsucc, returnAddress_succ, if_neg hk]
        exact if_congr (by omega) rfl rfl
    refine ⟨u, (nestedCalls_cons a targets).symm ▸ hu, ?_, huSP, hstack, huframe⟩
    rw [huPC, ← hustack, hstack, BitVec.sub_self]
    rfl

/-- Settles O18: nested calls come back, so `PC` and `SP` read as before them. -/
theorem sixteenNestedCallsReturnInOrder : Obligations.SixteenNestedCallsReturnInOrder := by
  intro targets s hlen
  obtain ⟨t, ht, hPC, hSP, -, hframe⟩ := execAll_nestedCalls targets s hlen
  exact ⟨t, ht, hPC, hSP, (hframe.drop hPC).drop hSP⟩

/-- Settles O19: inside the first call the sixteen others come back, and the last of them has left its return address,
the sixteenth target, in the entry that the first call had written. -/
theorem seventeenthCallOverwritesTheOldestReturn : Obligations.SeventeenthCallOverwritesTheOldestReturn := by
  intro first sixteenth seventeenth s hlen
  obtain ⟨a, rest, rfl⟩ := List.exists_cons_of_length_eq_add_one hlen
  have hrest : rest.length = 14 := by simpa using hlen
  obtain ⟨t, ht, -, htSP, htstack, htframe⟩ :=
    execAll_nestedCalls (rest ++ [sixteenth, seventeenth]) (s.afterCall a) (by simp [hrest])
  obtain ⟨u, hu, huPC, huSP, -, huframe⟩ := execAll_call_ret ht htSP htframe
  have hprogram : ((a :: rest) ++ [sixteenth, seventeenth]).map Instr.call ++ List.replicate 17 .ret =
      nestedCalls (a :: (rest ++ [sixteenth, seventeenth])) := by
    simp [nestedCalls, hrest]
  have hdepth : (s.SP - (s.afterCall a).SP).toNat = 15 := by
    show (s.SP - (s.SP + 1#4)).toNat = 15; bv_omega
  have hoverwritten : t.readStack s.SP = zextAddr sixteenth := by
    rw [htstack, hdepth, if_pos (by simp [hrest])]
    simp [returnAddress, hrest]
  refine ⟨u, ?_, ?_, huSP, ?_⟩
  · rw [hprogram, nestedCalls_cons]
    exact hu
  · rw [huPC, hoverwritten, toNat_zextAddr]
  · exact FrameBut.drop (p := .SP) (huframe.mono (by decide)) huSP

/-! ### Skips -/

/-- A skip taken exactly when `c` holds (40_control_flow.md R121). -/
theorem exec_skip_on {i : Instr} {s : State} {b : Bool} (h : exec i s = .next (s.skipIf b)) {c : Prop} [Decidable c]
    (hc : b = true ↔ c) : ∃ t, exec i s = .next t ∧
      t.PC.toNat = (if c then (s.PC.toNat + 2) % 65536 else s.PC.toNat) ∧ FrameBut [.PC] s t := by
  refine ⟨_, h, ?_, s.frame_skipIf b⟩
  rw [State.skipIf_PC, apply_ite BitVec.toNat, toNat_nextPC]
  exact if_congr hc rfl rfl

/-- A skip taken exactly when `c` fails. -/
theorem exec_skip_unless {i : Instr} {s : State} {b : Bool} (h : exec i s = .next (s.skipIf b)) {c : Prop} [Decidable c]
    (hc : b = true ↔ ¬ c) : ∃ t, exec i s = .next t ∧
      t.PC.toNat = (if c then s.PC.toNat else (s.PC.toNat + 2) % 65536) ∧ FrameBut [.PC] s t := by
  obtain ⟨t, ht, hPC, hframe⟩ := exec_skip_on h hc
  exact ⟨t, ht, hPC.trans (ite_not _ _ _), hframe⟩

theorem byte_beq_iff (a b : Byte) : (a == b) = true ↔ a.toNat = b.toNat := by
  rw [beq_iff_eq, BitVec.toNat_inj]

theorem byte_bne_iff (a b : Byte) : (a != b) = true ↔ ¬ a.toNat = b.toNat := by
  rw [bne_iff_ne, ne_eq, BitVec.toNat_inj]

/-- Settles O15: equality of bytes is equality of their values. -/
theorem skipsOnAnImmediate : Obligations.SkipsOnAnImmediate :=
  ⟨recognises_seImm, recognises_sneImm, fun x nn s =>
    ⟨exec_skip_on (exec_seImm x nn s) (byte_beq_iff _ _), exec_skip_unless (exec_sneImm x nn s) (byte_bne_iff _ _)⟩⟩

/-- Settles O16: as for an immediate, the second operand read from its register. -/
theorem skipsOnTwoRegisters : Obligations.SkipsOnTwoRegisters :=
  ⟨recognises_seReg, recognises_sneReg, fun x y s =>
    ⟨exec_skip_on (exec_seReg x y s) (byte_beq_iff _ _), exec_skip_unless (exec_sneReg x y s) (byte_bne_iff _ _)⟩⟩

/-- Settles O35: the key is the one whose index is the low nibble (44_keypad.md R181). -/
theorem keySkipsFollowTheKey : Obligations.KeySkipsFollowTheKey := by
  refine ⟨recognises_skp, recognises_sknp, fun x s k hk => ?_⟩
  have hkey : s.keyIsDown (s.readV x) = s.keys.get k :=
    congrArg s.keys.get (Fin.ext ((val_lowNibble _).trans hk.symm))
  exact ⟨exec_skip_on (exec_skp x s) (by rw [hkey]), exec_skip_unless (exec_sknp x s) (by simp [hkey])⟩

end Sys2Proof.Machine
end

section
/-! The proofs about 41_load_immediate.md R143 and 42_alu.md: the random byte, the operations without a flag, and those
whose flag is written after the result. -/

namespace Sys2Proof.Machine

/-! ### The random byte -/

/-- A value within the mask is not changed by it. -/
theorem and_eq_self_of_and_not {v nn : Byte} (h : v &&& ~~~nn = 0) : v &&& nn = v := by
  have hsplit : v = (v &&& nn) ||| (v &&& ~~~nn) := by
    rw [← BitVec.and_or_distrib_left, BitVec.or_not_self, BitVec.and_allOnes]
  rw [h] at hsplit
  simpa using hsplit.symm

/-- Either an answer was laid down and is taken, or the draw is counted. -/
theorem State.rnd_cases (s : State) :
    (∃ rest, s.rndAnswers = s.nextRnd :: rest ∧ s.dropRnd.rndAnswers = rest ∧ s.dropRnd.rndDraws = s.rndDraws) ∨
    (s.rndAnswers = [] ∧ s.dropRnd.rndAnswers = [] ∧ s.dropRnd.rndDraws = s.rndDraws + 1) := by
  unfold State.nextRnd State.dropRnd
  cases hr : s.rndAnswers with
  | nil => exact .inr ⟨rfl, rfl, rfl⟩
  | cons r rest => exact .inl ⟨rest, rfl, rfl, rfl⟩

/-- Settles O24: the byte the source answers next is masked; a wanted value within the mask is itself an answer. -/
theorem rndStoresTheMaskedDraw : Obligations.RndStoresTheMaskedDraw := by
  refine ⟨recognises_rnd, fun x nn s => ?_, fun x nn v s hv => ?_⟩
  · have hx : (s.dropRnd.writeV x (s.nextRnd &&& nn)).readV x = s.nextRnd &&& nn := by
      rw [State.readV_writeV, if_pos rfl]
    refine ⟨_, s.nextRnd, exec_rnd x nn s, fun q => ?_, ?_, fun hzero => ?_, exec_frame (exec_rnd x nn s), s.rnd_cases⟩
    · rw [State.readV_writeV, s.dropRnd_readV]
    · rw [hx, BitVec.and_assoc, BitVec.and_not_self]
      exact BitVec.and_zero
    · rw [hx, hzero]
      exact BitVec.and_zero
  · refine ⟨v, _, exec_rnd x nn _, ?_⟩
    rw [State.readV_writeV, if_pos rfl]
    exact and_eq_self_of_and_not hv

/-! ### Operations without a flag -/

/-- An instruction that writes one register, and what it says of the value written. -/
theorem exec_one_register {i : Instr} {s : State} {x : Reg} {v : Byte} (h : exec i s = .next (s.writeV x v))
    {P : Byte → Prop} (hP : P v) :
    ∃ t, exec i s = .next t ∧ P (t.readV x) ∧ (∀ r, r ≠ x → t.readV r = s.readV r) ∧ FrameBut [.V] s t := by
  refine ⟨_, h, ?_, fun r hr => ?_, s.frame_writeV x v⟩
  · rwa [s.readV_writeV, if_pos rfl]
  · rw [s.readV_writeV, if_neg hr]

/-- Settles O25: each writes the one register `x`, with the value of a bit as its operation says. -/
theorem copyAndLogicWriteNoFlag : Obligations.CopyAndLogicWriteNoFlag := by
  refine ⟨recognises_ldReg, recognises_orReg, recognises_andReg, recognises_xorReg, fun x y s => ⟨?_, ?_, ?_, ?_⟩⟩
  · exact exec_one_register (P := (· = s.readV y)) (exec_ldReg x y s) rfl
  · exact exec_one_register (P := fun v => ∀ b, v.getLsbD b = ((s.readV x).getLsbD b || (s.readV y).getLsbD b))
      (exec_orReg x y s) fun _ => BitVec.getLsbD_or
  · exact exec_one_register (P := fun v => ∀ b, v.getLsbD b = ((s.readV x).getLsbD b && (s.readV y).getLsbD b))
      (exec_andReg x y s) fun _ => BitVec.getLsbD_and
  · exact exec_one_register (P := fun v => ∀ b, v.getLsbD b = ((s.readV x).getLsbD b ^^ (s.readV y).getLsbD b))
      (exec_xorReg x y s) fun _ => BitVec.getLsbD_xor

/-! ### Operations with a flag -/

theorem toNat_flagByte (f : Bool) : (flagByte f).toNat = if f then 1 else 0 := by
  cases f <;> rfl

/-- The shape of 42_alu.md R150: the result, and then the flag, which wins when `x` is 15. -/
theorem exec_flagged {i : Instr} {s : State} {x : Reg} {result : Byte} {flag : Bool}
    (h : exec i s = .next (s.writeResultThenFlag x result flag)) {vf res : Nat} (hvf : (if flag then 1 else 0) = vf)
    (hres : result.toNat = res) :
    ∃ t, exec i s = .next t ∧ (t.readV 15).toNat = vf ∧ (x ≠ 15 → (t.readV x).toNat = res) ∧
      (∀ r, r ≠ x → r ≠ 15 → t.readV r = s.readV r) ∧ FrameBut [.V] s t := by
  refine ⟨_, h, ?_, fun hx => ?_, fun r hrx hr => ?_, s.frame_writeResultThenFlag x result flag⟩
  · rw [s.readV_writeResultThenFlag, if_pos rfl, toNat_flagByte, hvf]
  · rw [s.readV_writeResultThenFlag, if_neg hx, if_pos rfl, hres]
  · rw [s.readV_writeResultThenFlag, if_neg hr, if_neg hrx]

theorem flag_decide {p q : Prop} [Decidable p] [Decidable q] (h : p ↔ q) :
    (if decide p then 1 else 0) = if q then 1 else 0 := if_congr (decide_eq_true_iff.trans h) rfl rfl

/-- Settles O26: the sum of two bytes, and whether it passes 255. -/
theorem addRegSetsTheCarry : Obligations.AddRegSetsTheCarry :=
  ⟨recognises_addReg, fun x y s => exec_flagged (exec_addReg x y s) (flag_decide Iff.rfl) (BitVec.toNat_add _ _)⟩

/-- The 8-bit difference as a natural number. -/
theorem toNat_byte_sub (a b : Byte) : (a - b).toNat = (a.toNat + 256 - b.toNat) % 256 := by
  have hb := b.isLt
  rw [BitVec.toNat_sub]
  omega

/-- Settles O27: the two differences, and whether the subtrahend is no larger. -/
theorem subtractionsSetNoBorrow : Obligations.SubtractionsSetNoBorrow :=
  ⟨recognises_subReg, recognises_subnReg, fun x y s =>
    ⟨exec_flagged (exec_subReg x y s) (flag_decide Iff.rfl) (toNat_byte_sub _ _),
      exec_flagged (exec_subnReg x y s) (flag_decide Iff.rfl) (toNat_byte_sub _ _)⟩⟩

theorem flag_lowBit (a : Byte) : (if lowBit a then 1 else 0) = a.toNat % 2 := by
  simp only [lowBit, BitVec.getLsbD, Nat.testBit_zero, decide_eq_true_eq]
  split_ifs <;> omega

theorem flag_highBit (a : Byte) : (if highBit a then 1 else 0) = a.toNat / 128 := by
  have ha := a.isLt
  simp only [highBit, BitVec.getLsbD, Nat.testBit_eq_decide_div_mod_eq, decide_eq_true_eq]
  split_ifs <;> omega

theorem toNat_shiftRight_one (a : Byte) : (a >>> 1).toNat = a.toNat / 2 := by
  rw [BitVec.toNat_ushiftRight, Nat.shiftRight_eq_div_pow]

theorem toNat_shiftLeft_one (a : Byte) : (a <<< 1).toNat = a.toNat * 2 % 256 := by
  rw [BitVec.toNat_shiftLeft, Nat.shiftLeft_eq]

/-- Settles O28: the two shifts of `Vx`, and the bit that each moves out. -/
theorem shiftsMoveOneBitIntoVF : Obligations.ShiftsMoveOneBitIntoVF :=
  ⟨recognises_shr, recognises_shl, fun x y s =>
    ⟨exec_flagged (exec_shr x y s) (flag_lowBit _) (toNat_shiftRight_one _),
      exec_flagged (exec_shl x y s) (flag_highBit _) (toNat_shiftLeft_one _)⟩⟩

end Sys2Proof.Machine
end

section
/-! The proofs about 44_keypad.md section 3 and 45_timer_index_memory.md: the key wait and the key events, the timer
read, the index sum, and the block transfers. -/

namespace Sys2Proof.Machine

/-! ### The keypad -/

/-- Settles O36: the wait is the one part written. -/
theorem ldVxKEntersTheKeyWait : Obligations.LdVxKEntersTheKeyWait :=
  ⟨recognises_ldVxK, fun x s => ⟨_, exec_ldVxK x s, rfl, s.frame_writeWAIT _⟩⟩

theorem State.keyDown_of_down {s : State} {k : Key} (hk : s.keys.get k = true) : s.keyDown k = s := if_pos hk

theorem State.keyDown_of_up {s : State} {k : Key} (hk : s.keys.get k = false) :
    s.keyDown k = (s.setKey k true).completeWait k := if_neg (by rw [hk]; decide)

theorem State.completeWait_of_waiting {s : State} {r : Reg} (h : s.WAIT = some r) (k : Key) :
    s.completeWait k = (s.writeV r (keyByte k)).writeWAIT none := by
  unfold State.completeWait; rw [h]

theorem State.completeWait_of_not_waiting {s : State} (h : s.WAIT = none) (k : Key) : s.completeWait k = s := by
  unfold State.completeWait; rw [h]

@[simp] theorem State.completeWait_keys (s : State) (k : Key) : (s.completeWait k).keys = s.keys := by
  unfold State.completeWait; split <;> rfl

theorem toNat_keyByte (k : Key) : (keyByte k).toNat = k.val := by
  have hk := k.isLt
  rw [keyByte, BitVec.toNat_ofNat]
  omega

/-- A press leaves every key as it was but its own, which is down. -/
theorem State.keys_keyDown (s : State) (k j : Key) : (s.keyDown k).keys.get j = (decide (j = k) || s.keys.get j) := by
  cases hk : s.keys.get k with
  | true =>
    rw [State.keyDown_of_down hk]
    by_cases hj : j = k
    · rw [hj, hk, Bool.or_true]
    · rw [decide_eq_false hj, Bool.false_or]
  | false =>
    rw [State.keyDown_of_up hk, State.completeWait_keys, State.keys_get_setKey]
    by_cases hj : j = k <;> simp [hj]

/-- Settles O37: a repeat is nothing; a fresh press sets its key, and in a wait writes the index and ends the wait. -/
theorem keyEventsCompleteTheWait : Obligations.KeyEventsCompleteTheWait := by
  refine fun k s => ⟨⟨_, rfl, s.keys_keyDown k, fun r hk hr => ?_, fun hcase => ?_⟩, ⟨_, rfl, fun j => ?_, s.frame_keyUp k⟩⟩
  · have ht : s.keyDown k = ((s.setKey k true).writeV r (keyByte k)).writeWAIT none :=
      (State.keyDown_of_up hk).trans (State.completeWait_of_waiting (s := s.setKey k true) hr k)
    refine ⟨by rw [ht]; rfl, ?_, fun q hq => ?_, s.frame_keyDown k⟩
    · rw [ht, State.writeWAIT_readV, State.readV_writeV, if_pos rfl, toNat_keyByte]
    · rw [ht, State.writeWAIT_readV, State.readV_writeV, if_neg hq, State.setKey_readV]
  · cases hk : s.keys.get k with
    | true => exact (State.keyDown_of_down hk).symm ▸ FrameBut.refl _ s
    | false =>
      have hwait : (s.setKey k true).WAIT = none := hcase.resolve_left (by rw [hk]; decide)
      rw [State.keyDown_of_up hk, State.completeWait_of_not_waiting hwait]
      exact s.frame_setKey k true
  · rw [State.keyUp, State.keys_get_setKey]
    by_cases hj : j = k <;> simp [hj]

/-! ### The timer read and the index sum -/

/-- Settles O39: one register is written, with the timer's value. -/
theorem ldVxDTReadsTheDelayTimer : Obligations.LdVxDTReadsTheDelayTimer :=
  ⟨recognises_ldVxDT, fun x s => ⟨_, exec_ldVxDT x s, s.readV_writeV x s.DT, s.frame_writeV x s.DT⟩⟩

theorem toNat_maskIndex (mask : Bool) (v : Word) :
    (maskIndex mask v).toNat = v.toNat % (if mask = true then 4096 else 65536) := by
  cases mask with
  | true => exact (BitVec.toNat_and ..).trans (Nat.and_two_pow_sub_one_eq_mod v.toNat 12)
  | false => exact (Nat.mod_eq_of_lt v.isLt).symm

/-- Settles O41: the sum is reduced modulo 2^16, and by the mask where the build has it. -/
theorem addIAddsVxAndWritesNoFlag : Obligations.AddIAddsVxAndWritesNoFlag := by
  refine ⟨recognises_addI, fun x s => ⟨_, exec_addI x s, ?_, s.frame_writeI _⟩⟩
  rw [State.writeI_I, toNat_maskIndex, BitVec.toNat_add, toNat_zextByte]
  split_ifs <;> omega

/-! ### The block transfers -/

theorem State.storeReg_readByte (s : State) (r : Reg) (a : Nat) :
    (s.storeReg r).readByte a = if wrapAddr a = wrapAddr (s.indexed r.val) then s.readV r else s.readByte a :=
  s.readByte_writeByte _ _ a

/-- A block store leaves an address that is none of its own. -/
theorem State.readByte_storeRegs_outside (rs : List Reg) (s : State) (a : Nat)
    (h : ∀ r ∈ rs, wrapAddr a ≠ wrapAddr (s.indexed r.val)) : (rs.foldl State.storeReg s).readByte a = s.readByte a := by
  induction rs generalizing s with
  | nil => rfl
  | cons r rs ih =>
    rw [List.foldl_cons, ih (s.storeReg r) fun q hq => h q (List.mem_cons_of_mem r hq), State.storeReg_readByte,
      if_neg (h r List.mem_cons_self)]

/-- Different registers are stored at different addresses, however these wrap. -/
theorem State.wrapAddr_indexed_ne (s : State) {q r : Reg} (h : q ≠ r) :
    wrapAddr (s.indexed q.val) ≠ wrapAddr (s.indexed r.val) := by
  have hq := q.isLt
  have hr := r.isLt
  have hne : q.val ≠ r.val := fun e => h (Fin.ext e)
  simp only [wrapAddr, State.indexed, Config.memSize]
  omega

/-- A block store puts each of its registers at that register's own address. -/
theorem State.readByte_storeRegs (rs : List Reg) (s : State) {k : Reg} (hk : k ∈ rs) :
    (rs.foldl State.storeReg s).readByte (s.indexed k.val) = s.readV k := by
  induction rs generalizing s with
  | nil => cases hk
  | cons r rs ih =>
    rw [List.foldl_cons]
    by_cases hmem : k ∈ rs
    · exact ih (s.storeReg r) hmem
    · have hkr : k = r := (List.mem_cons.mp hk).resolve_right hmem
      have houtside : ∀ q ∈ rs, wrapAddr (s.indexed k.val) ≠ wrapAddr (s.indexed q.val) :=
        fun q hq => s.wrapAddr_indexed_ne fun e => hmem (e ▸ hq)
      rw [State.readByte_storeRegs_outside rs (s.storeReg r) _ houtside, State.storeReg_readByte, hkr, if_pos rfl]

/-- Settles O44: the loop of the block store over `V0..Vx`. -/
theorem storeRegistersWritesTheRange : Obligations.StoreRegistersWritesTheRange := by
  refine ⟨recognises_stRegs, fun x s => ⟨_, exec_stRegs x s, fun k hk => ?_, fun a ha => ?_, State.frame_storeRegs _ s⟩⟩
  · exact State.readByte_storeRegs _ s ((mem_regRange x k).mpr hk)
  · exact State.readByte_storeRegs_outside _ s a fun r hr => ha r ((mem_regRange x r).mp hr)

theorem State.readV_loadRegs_regRange (s : State) (x k : Reg) : ((regRange x).foldl State.loadReg s).readV k =
    if k ≤ x then s.readByte (s.indexed k.val) else s.readV k := by
  rw [State.readV_loadRegs]
  exact if_congr (mem_regRange x k) rfl rfl

/-- Settles O45: the loop of the block load over `V0..Vx`. -/
theorem loadRegistersReadsTheRange : Obligations.LoadRegistersReadsTheRange :=
  ⟨recognises_ldRegs, fun x s => ⟨_, exec_ldRegs x s, s.readV_loadRegs_regRange x, State.frame_loadRegs _ s⟩⟩

/-- Settles O46: the load reads each register's byte where the store put it. -/
theorem storeThenLoadGivesTheRegistersBack : Obligations.StoreThenLoadGivesTheRegistersBack := by
  refine fun x s => ⟨_, exec_stRegs x s, fun u hmem hI => ⟨_, exec_ldRegs x u, fun k hk => ?_⟩⟩
  have hI : u.I = s.I := hI.trans (by rw [State.storeRegs_eq])
  have haddr : u.indexed k.val = s.indexed k.val := by rw [State.indexed, State.indexed, hI]
  rw [u.readV_loadRegs_regRange, if_pos hk, hmem, haddr]
  exact State.readByte_storeRegs _ s ((mem_regRange x k).mpr hk)

end Sys2Proof.Machine
end

section
/-! The proofs about 60_exceptions.md section 4 and 70_reset_and_hazards.md section 1: ticks, the sound output, `Reset` and
`Load`. -/

namespace Sys2Proof.Machine

/-! ### Ticks -/

/-- Where no key is awaited, or ticks count in a wait, a tick decrements both timers. -/
theorem State.tick_of_counted {s : State} (h : s.WAIT = none ∨ s.config.tickDuringWait = true) :
    s.tick = (s.writeDT (countDown s.DT)).writeST (countDown s.ST) := by
  rw [s.tick_eq]
  refine if_neg ?_
  rcases h with h | h <;> simp [h]

theorem State.tick_of_uncounted {s : State} (hwait : s.WAIT ≠ none) (h : s.config.tickDuringWait = false) :
    s.tick = s := by
  rw [s.tick_eq]
  exact if_pos (by simp [h, Option.isSome_iff_ne_none, hwait])

/-- Settles O47: the two cases of a tick. -/
theorem tickDecrementsBothTimers : Obligations.TickDecrementsBothTimers := by
  refine ⟨rfl, fun s => ⟨_, rfl, fun h => ⟨?_, ?_, s.frame_tick⟩, fun hwait h => ?_⟩⟩
  · rw [State.tick_of_counted h]
    exact toNat_countDown s.DT
  · rw [State.tick_of_counted h]
    exact toNat_countDown s.ST
  · rw [State.tick_of_uncounted hwait h]
    exact FrameBut.refl _ s

theorem step_tick {s : State} {rest : List HostEvent} (hphase : s.phase ≠ .ended) (hagenda : s.agenda = .tick :: rest) :
    step s = .next s.takeEvent.tick := by
  rw [step_of_running hphase, State.nextEvent, hagenda]
  rfl

/-- Settles O48, by induction on the number of ticks: each leaves a state in which the next one counts too. -/
theorem ticksCountDownToZero : Obligations.TicksCountDownToZero := by
  intro k
  induction k with
  | zero => exact fun s rest _ _ hagenda => ⟨s, rfl, rfl, rfl, hagenda, FrameBut.refl _ s⟩
  | succ k ih =>
    intro s rest hphase hcounted hagenda
    have hagenda : s.agenda = .tick :: (List.replicate k .tick ++ rest) := hagenda
    have htick : s.takeEvent.tick = _ := State.tick_of_counted hcounted
    have hrest : s.takeEvent.tick.agenda = List.replicate k .tick ++ rest := by
      rw [htick]
      exact congrArg List.tail hagenda
    have hDT : s.takeEvent.tick.DT.toNat = s.DT.toNat - 1 := by
      rw [htick]
      exact toNat_countDown s.DT
    have hST : s.takeEvent.tick.ST.toNat = s.ST.toNat - 1 := by
      rw [htick]
      exact toNat_countDown s.ST
    obtain ⟨t, ht, htDT, htST, htagenda, htframe⟩ :=
      ih s.takeEvent.tick rest (by rw [htick]; exact hphase) (by rw [htick]; exact hcounted) hrest
    refine ⟨t, (core_run_succ (step_tick hphase hagenda)).trans ht, by omega, by omega, htagenda, ?_⟩
    exact (s.frame_takeEvent.comp (State.frame_tick _) (by decide) (by decide)).trans htframe

/-- Settles O49: `sound_on` is read off `ST`, which the instruction sets and the counted tick decrements. -/
theorem soundIsOnExactlyWhileSTIsNonzero : Obligations.SoundIsOnExactlyWhileSTIsNonzero := by
  refine fun s => ⟨s.soundOn_iff, fun x => ⟨_, exec_ldSTVx x s, State.soundOn_iff _⟩, fun h => ⟨_, rfl, ?_⟩⟩
  have hST : s.tick.ST.toNat = s.ST.toNat - 1 := by
    rw [State.tick_of_counted h]
    exact toNat_countDown s.ST
  rw [State.soundOn_iff, hST]
  omega

/-! ### `Reset` -/

theorem unlisted_font (font : Config.Font) (j : Nat) (hj : j < 80) : unlisted font (0x050 + j) = font[j] := by
  have hj : j < Config.fontSize := hj
  rw [unlisted, if_pos (by simp [Config.fontStart])]
  simp [Config.fontStart, hj]

theorem unlisted_fill (font : Config.Font) (a : Nat) (ha : a < 0x050 ∨ 0x0A0 ≤ a) : unlisted font a = 0x00 := by
  unfold unlisted
  split_ifs with hstart
  · have hend : ¬ a - Config.fontStart < Config.fontSize := by
      simp only [Config.fontStart, Config.fontSize] at *
      omega
    rw [Vector.getElem?_eq_none (Nat.le_of_not_lt hend)]
    rfl
  · rfl

/-- Settles O50: the reset state lists no byte, so memory reads as the font and the fill; the rest is evaluated. -/
theorem resetSetsEveryPieceOfState : Obligations.ResetSetsEveryPieceOfState := by
  refine ⟨fun s => ⟨s.resetEvent, rfl, rfl, rfl, fun j hj => ?_, fun a ha => ?_, s.resetEvent_readV, rfl, rfl,
    s.resetEvent_readStack, rfl, rfl, s.resetEvent_pixel, rfl, s.frame_resetEvent⟩, rfl, ?_, rfl⟩
  · rw [s.resetEvent_readByte, wrapAddr, Nat.mod_eq_of_lt (by simp only [Config.memSize]; omega)]
    exact unlisted_font _ j hj
  · rw [s.resetEvent_readByte, wrapAddr, Nat.mod_eq_of_lt (by simp only [Config.memSize]; omega)]
    exact unlisted_fill _ a (by omega)
  · decide

/-! ### `Load` -/

/-- Settles O51: the part of the image that fits ends at 4096, so nothing wraps. -/
theorem loadPutsTheImageAt0x200 : Obligations.LoadPutsTheImageAt0x200 := by
  refine fun image s => ⟨fun hphase => ⟨_, applyEvent_load_of_reset image hphase, fun j hj hfits => ?_, fun a ha hout => ?_,
    rfl, s.frame_loadImage image⟩, fun hphase => applyEvent_load_refused image ?_⟩
  · have hlen : j < (image.take Config.progMax).length := by
      simp only [List.length_take, Config.progMax]
      omega
    have hsize : (image.take Config.progMax).length ≤ Config.memSize := by
      simp only [List.length_take, Config.progMax, Config.memSize]
      omega
    exact (s.readByte_writeBytes Config.progStart _ hsize j hlen).trans List.getElem_take
  · refine s.readByte_writeBytes_outside Config.progStart _ a fun k hk => ?_
    simp only [List.length_take, Config.progMax, wrapAddr, Config.progStart, Config.memSize] at *
    omega
  · rcases hphase with h | h <;> rw [h] <;> decide

end Sys2Proof.Machine
end

section
/-! The proofs about 43_display.md: `CLS`, and `DRW` as a list of places that are plotted one after another, from which
both the count of hits and the picture of a clipped sprite follow. -/

namespace Sys2Proof.Machine

/-- Settles O30: no pixel is listed. -/
theorem clsTurnsEveryPixelOff : Obligations.ClsTurnsEveryPixelOff :=
  ⟨recognises_cls, fun s => ⟨_, exec_cls s, s.pixel_clearPixels, rfl, exec_frame (exec_cls s)⟩⟩

/-! ### A draw as a list of places -/

/-- Plot the places of a list, in order. -/
def State.plotAll (s : State) (places : List (Nat × Nat)) : State := places.foldl (fun s p => s.plotBit p.1 p.2) s

theorem State.plotAll_cons (s : State) (p : Nat × Nat) (places : List (Nat × Nat)) :
    s.plotAll (p :: places) = (s.plotBit p.1 p.2).plotAll places := rfl

theorem State.plotAll_append (s : State) (l m : List (Nat × Nat)) : s.plotAll (l ++ m) = (s.plotAll l).plotAll m :=
  List.foldl_append

theorem State.plotBit_config (s : State) (px py : Nat) : (s.plotBit px py).config = s.config := by
  rw [State.plotBit_eq]

/-- Plotting changes `V` and the framebuffer only. -/
theorem State.plotAll_eq (s : State) (places : List (Nat × Nat)) :
    s.plotAll places = { s with V := (s.plotAll places).V, fb := (s.plotAll places).fb } := by
  induction places generalizing s with
  | nil => rfl
  | cons p places ih => rw [State.plotAll_cons, ih, State.plotBit_eq]

/-- The columns of a row byte whose bit is set (43_display.md R170). -/
def setColumns (b : Byte) : List Nat := (List.range 8).filter fun col => b.getLsbD (7 - col)

/-- Where the set bits of a sprite's row land, left to right. -/
def rowPlaces (s : State) (x0 y0 row : Nat) : List (Nat × Nat) :=
  (setColumns (s.readByte (s.indexed row))).map (landsAt s x0 y0 row)

/-- Where the set bits of a sprite land, in the order of R172. -/
def spritePlaces (s : State) (x0 y0 n : Nat) : List (Nat × Nat) := (List.range n).flatMap (rowPlaces s x0 y0)

theorem State.drawBits_eq_plotAll (b : Byte) (x0 py : Nat) (cols : List Nat) (s : State) :
    cols.foldl (State.drawBit b x0 py) s = s.plotAll ((cols.filter fun col => b.getLsbD (7 - col)).map
      fun col => (edgeCoord s.config.drwEdge s.config.fbWidth (x0 + col), py)) := by
  induction cols generalizing s with
  | nil => rfl
  | cons col cols ih =>
    rw [List.foldl_cons, ih]
    by_cases hbit : b.getLsbD (7 - col) = true
    · rw [State.drawBit, if_pos hbit, State.plotBit_config, List.filter_cons, if_pos hbit]
      rfl
    · rw [State.drawBit, if_neg hbit, List.filter_cons, if_neg hbit]

theorem State.drawRow_eq_plotAll (s : State) (x0 y0 row : Nat) :
    s.drawRow x0 y0 row = s.plotAll (rowPlaces s x0 y0 row) := State.drawBits_eq_plotAll _ _ _ _ s

/-- Plotting moves no later row: neither memory, `I` nor the configuration changes. -/
theorem rowPlaces_plotAll (s : State) (places : List (Nat × Nat)) (x0 y0 row : Nat) :
    rowPlaces (s.plotAll places) x0 y0 row = rowPlaces s x0 y0 row := by
  rw [State.plotAll_eq]; rfl

theorem State.drawRows_eq_plotAll (s : State) (x0 y0 n : Nat) :
    s.drawRows x0 y0 n = s.plotAll (spritePlaces s x0 y0 n) := by
  induction n with
  | zero => rfl
  | succ n ih =>
    have hrow : (s.drawRows x0 y0 n).drawRow x0 y0 n = (s.drawRows x0 y0 n).plotAll (rowPlaces s x0 y0 n) := by
      rw [State.drawRow_eq_plotAll, ih, rowPlaces_plotAll]
    unfold State.drawRows at ih hrow ⊢
    rw [List.range_succ, List.foldl_append, List.foldl_cons, List.foldl_nil, hrow, ih, ← State.plotAll_append]
    simp [spritePlaces, List.range_succ]

/-- The hits of a sprite on a pixel are how often the pixel is among its places. -/
theorem count_spritePlaces (s : State) (x0 y0 n px py : Nat) :
    (spritePlaces s x0 y0 n).count (px, py) = spriteHits s x0 y0 n px py := by
  have hrow (row : Nat) : (rowPlaces s x0 y0 row).count (px, py) = ((List.range 8).filter fun col =>
      (s.readByte (s.indexed row)).getLsbD (7 - col) && landsAt s x0 y0 row col == (px, py)).length := by
    rw [rowPlaces, setColumns, List.count, List.countP_map, List.countP_filter, ← List.countP_eq_length_filter]
    exact List.countP_congr fun col _ => by simp [and_comm]
  rw [spritePlaces, spriteHits, List.count_flatMap, List.length_flatMap]
  exact congrArg List.sum (List.map_congr_left fun row _ => hrow row)

/-! ### Plotting, pixel by pixel -/

/-- A pixel of the grid flips once for each time it is plotted. -/
theorem State.pixel_plotAll (s : State) (places : List (Nat × Nat)) {px py : Nat} (h : InGrid s px py) :
    (s.plotAll places).pixel px py = (s.pixel px py ^^ decide (places.count (px, py) % 2 = 1)) := by
  induction places generalizing s with
  | nil => simp [State.plotAll]
  | cons p places ih =>
    have hgrid : InGrid (s.plotBit p.1 p.2) px py := by rwa [InGrid, State.plotBit_config]
    rw [State.plotAll_cons, ih _ hgrid, State.pixel_plotBit, List.count_cons]
    by_cases hp : p = (px, py)
    · subst hp
      have hodd : decide ((places.count (px, py) + 1) % 2 = 1) = !decide (places.count (px, py) % 2 = 1) := by
        rw [← decide_not]
        exact decide_eq_decide.mpr (by omega)
      simp [h, hodd]
    · have hne : ¬ (px = p.1 ∧ py = p.2 ∧ InGrid s p.1 p.2) := fun e => hp (Prod.ext e.1.symm e.2.1.symm)
      simp [hne, hp]

/-- A pixel is found on when it is plotted: it was on and is plotted, or it is plotted twice (43_display.md R172). -/
def FoundOn (s : State) (places : List (Nat × Nat)) (q : Nat × Nat) : Prop :=
  (s.pixel q.1 q.2 = true ∧ 1 ≤ places.count q) ∨ 2 ≤ places.count q

/-- A pixel of the grid is found on at the first place, or at a later one, once the first was plotted. -/
theorem foundOn_cons {s : State} {p q : Nat × Nat} {places : List (Nat × Nat)} (hq : InGrid s q.1 q.2) :
    FoundOn s (p :: places) q ↔ (q = p ∧ s.pixel q.1 q.2 = true) ∨ FoundOn (s.plotBit p.1 p.2) places q := by
  unfold FoundOn
  rw [State.pixel_plotBit, List.count_cons]
  by_cases hp : q = p
  · subst hp
    rw [decide_eq_true (⟨rfl, rfl, hq⟩ : q.1 = q.1 ∧ q.2 = q.2 ∧ InGrid s q.1 q.2), if_pos (beq_self_eq_true q)]
    cases s.pixel q.1 q.2 <;> simp [-List.one_le_count_iff]
    omega
  · have hne : ¬ (q.1 = p.1 ∧ q.2 = p.2 ∧ InGrid s p.1 p.2) := fun e => hp (Prod.ext e.1 e.2.1)
    simp [hne, hp, Ne.symm hp]

/-- Some place of the grid is found on. -/
def PlotCollides (s : State) (places : List (Nat × Nat)) : Prop := ∃ q : Nat × Nat, InGrid s q.1 q.2 ∧ FoundOn s places q

theorem plotCollides_nil (s : State) : ¬ PlotCollides s [] := by
  rintro ⟨q, -, h⟩
  simp [FoundOn] at h

theorem plotCollides_cons (s : State) (p : Nat × Nat) (places : List (Nat × Nat)) :
    PlotCollides s (p :: places) ↔
      (InGrid s p.1 p.2 ∧ s.pixel p.1 p.2 = true) ∨ PlotCollides (s.plotBit p.1 p.2) places := by
  have hgrid (q : Nat × Nat) : InGrid (s.plotBit p.1 p.2) q.1 q.2 ↔ InGrid s q.1 q.2 := by
    rw [InGrid, State.plotBit_config]
  simp only [PlotCollides, hgrid]
  constructor
  · rintro ⟨q, hq, hfound⟩
    rcases (foundOn_cons hq).mp hfound with ⟨rfl, hon⟩ | hlater
    · exact .inl ⟨hq, hon⟩
    · exact .inr ⟨q, hq, hlater⟩
  · rintro (⟨hp, hon⟩ | ⟨q, hq, hlater⟩)
    · exact ⟨p, hp, (foundOn_cons hp).mpr (.inl ⟨rfl, hon⟩)⟩
    · exact ⟨q, hq, (foundOn_cons hq).mpr (.inr hlater)⟩

/-- Plotting sets `VF` when a place is found on, and writes no register otherwise. -/
theorem State.readV_plotAll (s : State) (places : List (Nat × Nat)) :
    (PlotCollides s places → (s.plotAll places).readV 15 = 0x01) ∧
      ∀ r, r ≠ 15 ∨ ¬ PlotCollides s places → (s.plotAll places).readV r = s.readV r := by
  induction places generalizing s with
  | nil => exact ⟨fun h => absurd h (plotCollides_nil s), fun _ _ => rfl⟩
  | cons p places ih =>
    obtain ⟨hset, hkeep⟩ := ih (s.plotBit p.1 p.2)
    rw [plotCollides_cons, State.plotAll_cons]
    refine ⟨fun h => ?_, fun r h => ?_⟩
    · by_cases hlater : PlotCollides (s.plotBit p.1 p.2) places
      · exact hset hlater
      · obtain ⟨hgrid, hon⟩ := h.resolve_right hlater
        rw [hkeep 15 (.inr hlater), State.readV_plotBit, if_pos ⟨hgrid, hon, rfl⟩]
        rfl
    · have hlater : r ≠ 15 ∨ ¬ PlotCollides (s.plotBit p.1 p.2) places := h.imp_right fun hn hl => hn (.inr hl)
      have hfirst : ¬ (InGrid s p.1 p.2 ∧ s.pixel p.1 p.2 = true ∧ r = 15) := fun ⟨hgrid, hon, hr⟩ =>
        h.elim (fun hne => hne hr) fun hn => hn (.inl ⟨hgrid, hon⟩)
      rw [hkeep r hlater, State.readV_plotBit, if_neg hfirst]

/-! ### The draw -/

/-- The sprite collides exactly when one of its places is found on. -/
theorem plotCollides_spritePlaces (s : State) (x0 y0 n : Nat) :
    PlotCollides s (spritePlaces s x0 y0 n) ↔ Collides s x0 y0 n := by
  simp only [PlotCollides, FoundOn, Collides, Prod.exists, count_spritePlaces]

/-- Hits and collisions are read off memory, `I`, the configuration and the framebuffer. -/
theorem spriteHits_congr {s t : State} (hmem : t.mem = s.mem) (hI : t.I = s.I) (hconfig : t.config = s.config)
    (x0 y0 n px py : Nat) : spriteHits t x0 y0 n px py = spriteHits s x0 y0 n px py := by
  have hbyte (a : Nat) : t.readByte a = s.readByte a := by rw [State.readByte, State.readByte, hmem, hconfig]
  simp only [spriteHits, hbyte, State.indexed, hI, landsAt, hconfig]

/-- The state a draw leaves: `VF` is cleared and the sprite's places are plotted (43_display.md R172). -/
theorem exec_drw_eq_plotAll (x y : Reg) (n : Nibble) (s : State) {x0 y0 : Nat}
    (hx0 : x0 = (s.readV x).toNat % s.config.fbWidth) (hy0 : y0 = (s.readV y).toNat % s.config.fbHeight) :
    exec (.drw x y n) s =
      .next (((s.writeV 15 0x00).plotAll (spritePlaces (s.writeV 15 0x00) x0 y0 n.toNat)).writeDirty true) := by
  rw [← State.drawRows_eq_plotAll, hx0, hy0]
  exact exec_drw x y n s

/-- What one draw does, under either edge rule and on a grid of any size. -/
theorem exec_drw_effect (x y : Reg) (n : Nibble) (s : State) {x0 y0 : Nat}
    (hx0 : x0 = (s.readV x).toNat % s.config.fbWidth) (hy0 : y0 = (s.readV y).toNat % s.config.fbHeight) :
    ∃ t, exec (.drw x y n) s = .next t ∧
      (∀ px py, InGrid s px py →
        t.pixel px py = (s.pixel px py ^^ decide (spriteHits s x0 y0 n.toNat px py % 2 = 1))) ∧
      (Collides s x0 y0 n.toNat → t.readV 15 = 0x01) ∧ (¬ Collides s x0 y0 n.toNat → t.readV 15 = 0x00) ∧
      (∀ r, r ≠ 15 → t.readV r = s.readV r) ∧ t.dirty = true ∧ FrameBut [.V, .fb, .dirty] s t := by
  have hexec := exec_drw_eq_plotAll x y n s hx0 hy0
  obtain ⟨hset, hkeep⟩ := (s.writeV 15 0x00).readV_plotAll (spritePlaces (s.writeV 15 0x00) x0 y0 n.toNat)
  have hcollides : PlotCollides (s.writeV 15 0x00) (spritePlaces (s.writeV 15 0x00) x0 y0 n.toNat) ↔
      Collides s x0 y0 n.toNat := plotCollides_spritePlaces (s.writeV 15 0x00) x0 y0 n.toNat
  refine ⟨_, hexec, fun px py hgrid => ?_, fun hc => hset (hcollides.mpr hc), fun hc => ?_, fun r hr => ?_, rfl,
    exec_frame hexec⟩
  · rw [State.writeDirty_pixel, State.pixel_plotAll (s.writeV 15 0x00) _ hgrid, count_spritePlaces]
    rfl
  · exact (hkeep 15 (.inr fun hp => hc (hcollides.mp hp))).trans (by rw [State.readV_writeV, if_pos rfl])
  · exact (hkeep r (.inl hr)).trans (by rw [State.readV_writeV, if_neg hr])

/-- Settles O32: the places are plotted one after another. -/
theorem drwUnderEitherEdgeRule : Obligations.DrwUnderEitherEdgeRule :=
  fun x y n s _ _ hx0 hy0 => exec_drw_effect x y n s hx0 hy0

theorem exec_drw_readV_15 (x y : Reg) (n : Nibble) {s t : State} (h : exec (.drw x y n) s = .next t) :
    t.readV 15 = 0x00 ∨ t.readV 15 = 0x01 := by
  obtain ⟨u, hu, -, hset, hclear, -⟩ := exec_drw_effect x y n s rfl rfl
  cases hu.symm.trans h
  exact (Classical.em _).elim (fun hc => .inr (hset hc)) fun hc => .inl (hclear hc)

/-! ### A clipped sprite (43_display.md R170, R175) -/

/-- Counting the one column, or the one row, that falls on `b`. -/
theorem countP_range_add_eq (q : Nat → Bool) (a b m : Nat) :
    (List.range m).countP (fun c => q c && a + c == b) = if a ≤ b ∧ b < a + m ∧ q (b - a) = true then 1 else 0 := by
  induction m with
  | zero => simp; omega
  | succ m ih =>
    rw [List.range_succ, List.countP_append, ih, List.countP_singleton]
    by_cases hb : a + m = b
    · subst hb
      simp
    · have hrange : a ≤ b ∧ b < a + (m + 1) ↔ a ≤ b ∧ b < a + m := by omega
      simp [hb, ← and_assoc, hrange]

theorem sum_map_ite_one (q : Nat → Bool) (l : List Nat) : (l.map fun r => if q r = true then 1 else 0).sum = l.countP q := by
  induction l with
  | nil => rfl
  | cons r l ih => rw [List.map_cons, List.sum_cons, ih, List.countP_cons, Nat.add_comm]

/-- The bit that row `row` of a sprite that starts in column `x0` has for column `px`, clipped (43_display.md R170). -/
def rowBit (s : State) (x0 row px : Nat) : Bool :=
  decide (x0 ≤ px ∧ px < x0 + 8) && (s.readByte (s.indexed row)).getLsbD (7 - (px - x0))

theorem spriteBit_eq_true_iff (s : State) (x0 y0 n px py : Nat) :
    spriteBit s x0 y0 n px py = true ↔ y0 ≤ py ∧ py < y0 + n ∧ rowBit s x0 (py - y0) px = true := by
  simp only [spriteBit, rowBit, Bool.and_eq_true, decide_eq_true_eq]
  tauto

/-- On a build that clips a row hits a pixel once where it has a bit for the column and is the pixel's own row. -/
theorem rowHits_of_clip {s : State} (hclip : s.config.drwEdge = .clip) (x0 y0 row px py : Nat) :
    ((List.range 8).filter fun col =>
      (s.readByte (s.indexed row)).getLsbD (7 - col) && landsAt s x0 y0 row col == (px, py)).length =
      if (rowBit s x0 row px && y0 + row == py) = true then 1 else 0 := by
  have hland (col : Nat) : (landsAt s x0 y0 row col == (px, py)) = (x0 + col == px && y0 + row == py) := by
    simp only [landsAt, edgeCoord, hclip]
    rfl
  simp only [hland, ← List.countP_eq_length_filter]
  by_cases hy : y0 + row = py
  · have hcol := countP_range_add_eq (fun col => (s.readByte (s.indexed row)).getLsbD (7 - col)) x0 px 8
    simp only [hy, beq_self_eq_true, Bool.and_true, hcol]
    simp [rowBit, and_assoc]
  · simp [hy]

/-- On a build that clips a pixel is hit once where the picture has a bit for it, and else not at all. -/
theorem spriteHits_of_clip {s : State} (hclip : s.config.drwEdge = .clip) (x0 y0 n px py : Nat) :
    spriteHits s x0 y0 n px py = if spriteBit s x0 y0 n px py = true then 1 else 0 := by
  rw [spriteHits, List.length_flatMap, List.map_congr_left fun row _ => rowHits_of_clip hclip x0 y0 row px py,
    sum_map_ite_one, countP_range_add_eq]
  exact if_congr (spriteBit_eq_true_iff s x0 y0 n px py).symm rfl rfl

/-- Settles O31: with at most one hit a pixel, an odd number of hits is the sprite's bit, and a collision is a pixel that
was on under a set bit. -/
theorem drwXorsTheClippedSprite : Obligations.DrwXorsTheClippedSprite := by
  refine ⟨recognises_drw, fun x y n s x0 y0 hclip hx0 hy0 => ?_⟩
  obtain ⟨t, ht, hpixel, hset, hclear, hregs, hdirty, hframe⟩ := exec_drw_effect x y n s hx0 hy0
  have hhits := spriteHits_of_clip hclip x0 y0 n.toNat
  have hcollides : Collides s x0 y0 n.toNat ↔
      ∃ px py, InGrid s px py ∧ s.pixel px py = true ∧ spriteBit s x0 y0 n.toNat px py = true := by
    refine exists₂_congr fun px py => and_congr_right fun _ => ?_
    rw [hhits]
    split_ifs with hbit <;> simp [hbit]
  refine ⟨t, ht, fun px py hgrid => ?_, (exec_drw_readV_15 x y n ht).symm, ?_, hregs, hdirty, hframe⟩
  · rw [hpixel px py hgrid, hhits]
    cases spriteBit s x0 y0 n.toNat px py <;> rfl
  · rw [← hcollides]
    refine ⟨fun hone => ?_, hset⟩
    by_contra hnone
    exact absurd (hone.symm.trans (hclear hnone)) (by decide)

/-! ### Drawing twice -/

/-- Settles O33: the second draw hits the same pixels as often, so each flips back, and finds on what the first left. -/
theorem drawingTwiceRestoresTheFramebuffer : Obligations.DrawingTwiceRestoresTheFramebuffer := by
  intro x y n s x0 y0 hx0 hy0
  obtain ⟨t, ht, hpixel, -, -, -, -, hframe⟩ := exec_drw_effect x y n s hx0 hy0
  refine ⟨t, ht, fun hx hy => ?_⟩
  have hconfig : t.config = s.config := exec_config ht
  have hgrid (px py : Nat) : InGrid t px py ↔ InGrid s px py := by rw [InGrid, hconfig]
  have hhits := spriteHits_congr (exec_mem ht (by simp [writesOf])) (hframe .I (by decide)) hconfig x0 y0 n.toNat
  obtain ⟨u, hu, hupixel, huset, huclear, -⟩ := exec_drw_effect x y n t (x0 := x0) (y0 := y0)
    (by rw [hx, hconfig, hx0]) (by rw [hy, hconfig, hy0])
  have hflag : u.readV 15 = 0x01 ↔ Collides t x0 y0 n.toNat := by
    refine ⟨fun hone => ?_, huset⟩
    by_contra hnone
    exact absurd (hone.symm.trans (huclear hnone)) (by decide)
  refine ⟨u, hu, fun px py => ?_, hflag, fun hempty => hflag.trans ?_⟩
  · by_cases hin : InGrid s px py
    · rw [hupixel px py ((hgrid px py).mpr hin), hpixel px py hin, hhits, Bool.xor_assoc, Bool.xor_self, Bool.xor_false]
    · have hout : ¬ InGrid u px py := by
        rw [InGrid, exec_config hu]
        exact fun h => hin ((hgrid px py).mp h)
      rw [u.pixel_outside px py hout, s.pixel_outside px py hin]
  · refine exists₂_congr fun px py => ?_
    rw [hgrid, hhits]
    refine and_congr_right fun hin => ?_
    rw [hpixel px py hin, hempty, Bool.false_xor, decide_eq_true_eq]
    omega

end Sys2Proof.Machine
end

section
/-! The proof about 42_alu.md section 3: which instructions change `VF`, and what those that write it as a flag leave. -/

namespace Sys2Proof.Machine

theorem flagByte_cases (f : Bool) : flagByte f = 0x00 ∨ flagByte f = 0x01 := by
  cases f
  · exact .inl rfl
  · exact .inr rfl

theorem State.readV_15_writeResultThenFlag (s : State) (x : Reg) (result : Byte) (flag : Bool) :
    (s.writeResultThenFlag x result flag).readV 15 = flagByte flag := by
  rw [s.readV_writeResultThenFlag, if_pos rfl]

theorem exec_flag_writer {i : Instr} {s t : State} (h : exec i s = .next t) (hi : writesFlag i = true) :
    t.readV 15 = 0x00 ∨ t.readV 15 = 0x01 := by
  cases i with
  | drw x y n => exact exec_drw_readV_15 x y n h
  | addReg | subReg | shr | subnReg | shl =>
    cases h
    exact (State.readV_15_writeResultThenFlag _ _ _ _).symm ▸ flagByte_cases _
  | _ => cases hi

theorem State.readV_15_writeV (s : State) {x : Reg} (hx : some x ≠ some 15) (v : Byte) :
    (s.writeV x v).readV 15 = s.readV 15 := by
  rw [s.readV_writeV, if_neg fun e => hx (congrArg some e.symm)]

/-- An instruction that writes no flag and does not name `VF` leaves it: it writes no register, one other register, or a
range that ends below. -/
theorem exec_keeps_VF {i : Instr} {s t : State} (h : exec i s = .next t) (hi : writesFlag i = false)
    (hdest : namedDestination i ≠ some 15) : t.readV 15 = s.readV 15 := by
  by_cases hV : Piece.V ∈ writesOf i
  · cases i with
    | ldImm | addImm | ldReg | orReg | andReg | xorReg | ldVxDT =>
      cases h
      exact s.readV_15_writeV hdest _
    | rnd =>
      cases h
      exact (s.dropRnd.readV_15_writeV hdest _).trans (s.dropRnd_readV 15)
    | ldRegs x =>
      cases h
      have hx : ¬ (15 : Reg) ≤ x := fun hle => hdest (congrArg some (Fin.le_antisymm (Fin.le_last x) hle))
      rw [s.readV_loadRegs_regRange, if_neg hx]
    | addReg | subReg | shr | subnReg | shl | drw => cases hi
    | _ => simp [writesOf] at hV
  · exact exec_frame h .V hV 15

/-- Settles O29: by whether the instruction writes `VF` as a flag. -/
theorem onlyFlagWritersAndDestinationsChangeVF : Obligations.OnlyFlagWritersAndDestinationsChangeVF := by
  intro i s
  obtain ⟨t, ht⟩ := exec_answers i s
  exact ⟨t, ht, exec_flag_writer ht, exec_keeps_VF ht⟩

end Sys2Proof.Machine
end
